-- ==== Sys2Proof/Word.lean ====
section
/-! DEFINITION. The widths of CRC16-FC: a byte (R5 `BYTE`), the 16-bit address and CRC fields (R5 `ADDR_WIDTH`,
`CRC_WIDTH`), and the 32-bit operation word (R6, R45). -/

namespace Sys2Proof

/-- One byte of a frame or of a buffer (R27). -/
abbrev Byte := BitVec 8

/-- A 16-bit field: an address, a CRC, or the value `RD` returns (R8, R19). -/
abbrev Half := BitVec 16

/-- An operation word (R45). -/
abbrev OpWord := BitVec 32

end Sys2Proof
end

