-- ==== Sys2Proof/Config.lean ====
section
/-! DEFINITION. The constants of the block: the parameters the document fixes (R5) and those the spec gives a
value (R6). The parameters R6 leaves OPEN are read by no rule of the block (D17) and do not appear. -/

namespace Sys2Proof.Config

/-- `CRC_POLY`: x^16 + x^12 + x^5 + 1, its leading term implicit (R2, R53). -/
def crcPoly : Half := 0x1021#16

/-- `CRC_INIT` (R2, R5). -/
def crcInit : Half := 0x0000#16

/-- `START_REQ`, the start marker of a request frame (R5, R35). -/
def startReq : Byte := 0x2F#8

/-- `START_RSP`, the start marker of a response frame (R5, R35). -/
def startRsp : Byte := 0x2E#8

/-- `MAX_PAYLOAD` and `TXBUF_DEPTH` (R5, R6). -/
def maxPayload : Nat := 255

/-- The default address of the call `build` (R5, R47, D4). -/
def defaultAddress : Half := 0x0000#16

/-- The default payload of the call `build`, one byte 0x00 (R5, R47, D4). -/
def defaultPayload : List Byte := [0x00#8]

/-- `RXBUF_DEPTH` = `MAX_RSP_FRAME`, the longest response frame (R5, R6). -/
def rxDepth : Nat := 263

/-- `TXQ_DEPTH` = `MAX_REQ_FRAME`, the longest request frame (R5, R6). -/
def txqDepth : Nat := 262

end Sys2Proof.Config
end

