-- ==== Sys2Proof/Machine/Bytes.lean ====
section
/-! DEFINITION. The byte-order helpers of 00_scope.md section 6.1: `hi8`, `lo8`, `be16`. -/

namespace Sys2Proof.Machine

/-- `hi8(v)` = `v[15:8]`. -/
def hi8 (v : Half) : Byte := v.extractLsb' 8 8

/-- `lo8(v)` = `v[7:0]`. -/
def lo8 (v : Half) : Byte := v.extractLsb' 0 8

/-- `be16(h, l)`: the 16-bit value with high byte `h` (R26). -/
def be16 (h l : Byte) : Half := h ++ l

/-- The byte that counts `n` items; exact for `n` up to 255 (R39). -/
def countByte (n : Nat) : Byte := BitVec.ofNat 8 n

end Sys2Proof.Machine
end

