-- ==== Sys2Proof/Machine/Crc.lean ====
section
/-! DEFINITION. The CRC function of 40_crc.md: R53's loop for one byte, R52's loop over a sequence. The loop is
the spec's own expansion of the parameter set (G1; notes/assumptions/16.md). -/

namespace Sys2Proof.Machine

/-- One pass of R53's inner loop: the test of bit 15 is made before the shift. -/
def crcShift (c : Half) : Half :=
  if c.getLsbD 15 then (c <<< 1) ^^^ Config.crcPoly else c <<< 1

/-- Eight passes of the inner loop (R53). -/
def crcShift8 (c : Half) : Half :=
  crcShift (crcShift (crcShift (crcShift (crcShift (crcShift (crcShift (crcShift c)))))))

/-- `crc_step(c, b)`: the byte meets the high byte of `c`, then eight passes (R53). -/
def crcStep (c : Half) (b : Byte) : Half :=
  crcShift8 (c ^^^ (b.setWidth 16 <<< 8))

/-- The CRC register after the bytes `s` from `c`, first byte first (R52). -/
def crcFrom (c : Half) (s : List Byte) : Half :=
  s.foldl crcStep c

/-- `crc16(s)` (R52). -/
def crc16 (s : List Byte) : Half :=
  crcFrom Config.crcInit s

end Sys2Proof.Machine
end

