-- ==== Sys2Proof/Machine/State.lean ====
section
/-! DEFINITION. The state of CRC16-FC as plain data (10_state.md R8 lists all of it), the outcomes an operation
delivers to its issuer (00_scope.md section 6.4), the reasons this model stops, and the state after reset (R23).
The fields `result` and `port` are the model's own (notes/assumptions/1.md and 2.md). -/

namespace Sys2Proof.Machine

/-- A byte store: (index, byte) pairs, indices strictly rising. An index that is not listed holds no value
(R20), so no listed pair can equal what an unlisted index reads as. -/
abbrev Memory := List Host.Cell

/-- The causes of an EncodingError (R102). -/
inductive EncodingCause where
  /-- `E_OPCODE`: the staged command is not in `CMDSET`. -/
  | opcode
  /-- `E_OVERSIZE`: more than 255 payload bytes were pushed. -/
  | oversize
  deriving DecidableEq, Repr

/-- The causes of a DecodingError (R103). -/
inductive DecodingCause where
  /-- `D_EMPTY`: nothing was received. -/
  | empty
  /-- `D_LENGTH`: the count is not 8 plus the length byte. -/
  | length
  /-- `D_OPCODE`: unknown opcode in byte 1. -/
  | opcode
  /-- `D_ACK`: unknown ack code. -/
  | ack
  /-- `D_MARKER`: the leading byte is not 0x2E. -/
  | marker
  /-- `D_CRC`: the CRC field is not the CRC of the bytes before it. -/
  | crc
  /-- `D_PAYLOAD`: the identification payload is malformed. -/
  | payload
  deriving DecidableEq, Repr

/-- The causes of a UsageFault (R104). -/
inductive UsageCause where
  /-- `U_ILLEGAL_OP`: the word spells no operation. -/
  | illegalOp
  /-- `U_NO_VALUE`: the register holds no value. -/
  | noValue
  /-- `U_BAD_REG`: the number names no register. -/
  | badReg
  /-- `U_BAD_INDEX`: the index is not below `F_LEN`. -/
  | badIndex
  deriving DecidableEq, Repr

/-- An error an operation raises, of one of the block's three classes (R100). -/
inductive Raised where
  | encoding (c : EncodingCause)
  | decoding (c : DecodingCause)
  | usage (c : UsageCause)
  deriving DecidableEq, Repr

/-- Why an operation is held (R107). -/
inductive Hold where
  /-- `hold Busy`: `TX.BUILD` while `TXQ` still holds bytes. -/
  | busy
  /-- `hold Empty`: `LINE.TAKE` while `TXQ` is empty. -/
  | empty
  deriving DecidableEq, Repr

/-- The outcome an operation delivers to its issuer (00_scope.md section 6.4). -/
inductive Result where
  /-- No operation has been issued since reset (DESIGN CHOICE, notes/assumptions/2.md). -/
  | none
  /-- `ok`. -/
  | ok
  /-- `ok(v)` with the 16-bit value of `RD` and `RD.PL` (R79, R80). -/
  | value (v : Half)
  /-- `ok(b)` with the byte of `LINE.TAKE` (R65). -/
  | byte (b : Byte)
  /-- `raise`. -/
  | raised (r : Raised)
  /-- `hold`. -/
  | held (h : Hold)
  deriving DecidableEq, Repr

/-- The registers `F_START` to `F_CRC`, which hold a value together, when `F_VALID` = 1 (R8, R15). -/
structure FrameRegs where
  /-- `F_START`. -/
  start : Byte
  /-- `F_CMD`. -/
  cmd : Byte
  /-- `F_ADDR`. -/
  addr : Half
  /-- `F_LEN`. -/
  len : Byte
  /-- `F_PL`: indices below `F_LEN` hold a value. -/
  pl : Memory
  /-- `F_ACK`. -/
  ack : Byte
  /-- `F_CRC`. -/
  crc : Half
  deriving DecidableEq, Repr

/-- The registers `P_SIG0` to `P_FAMILY`, which hold a value together, when `P_KIND` = 2 (R8, R16). -/
structure IdentRegs where
  /-- `P_SIG0`. -/
  sig0 : Byte
  /-- `P_SIG1`. -/
  sig1 : Byte
  /-- `P_BOOT`. -/
  boot : Byte
  /-- `P_MODE`. -/
  mode : BitVec 2
  /-- `P_FAMILY`: 0 silabs, 1 atmel. -/
  family : BitVec 1
  deriving DecidableEq, Repr

/-- `P_KIND` with the payload registers: 0, 1 and 2 in this order; 3 never occurs (R16). -/
inductive Interp where
  /-- `P_KIND` = 0: no interpretation is held. -/
  | none
  /-- `P_KIND` = 1: the raw bytes unchanged. -/
  | raw
  /-- `P_KIND` = 2: a device identification payload. -/
  | ident (r : IdentRegs)
  deriving DecidableEq, Repr

/-- What an agent issues to the block (R7): an operation word (R45), a pseudo-instruction given whole (R48,
R49), or the reset input (R113). -/
inductive Issue where
  /-- An operation word on the operation port. -/
  | word (w : BitVec 32)
  /-- A request frame given whole by its operands: the operations of R48 up to and with `TX.BUILD`
  (notes/assumptions/8.md). -/
  | build (cmd : Byte) (addr : Half) (payload : List Byte)
  /-- The call `build(cmd[, address][, payload])` as R47 (a) spells it, an omitted operand absent: it expands to all
  the operations of R48, the `LINE.TAKE`s included (notes/assumptions/17.md). -/
  | buildCall (cmd : Byte) (addr : Option Half) (payload : Option (List Byte))
  /-- `parse(bytes)`: a received byte sequence to be judged (R49). -/
  | parse (bytes : List Byte)
  /-- The reset input `RST`. -/
  | rst
  deriving DecidableEq, Repr

/-- The indexed byte stores (R25). -/
inductive Buffer where
  | txBuf
  | rxBuf
  | fPl
  deriving DecidableEq, Repr

/-- Why the machine stops with a fault. -/
inductive Fault where
  /-- An operation reads an index of the buffer that holds no value although the count register says it does.
  Raised by the reads of `TX.BUILD` (`TXBUF`), `RX.PARSE` (`RXBUF`), `RX.PAYLOAD` and `RD.PL` (`F_PL`), in states
  no run from reset reaches (R20; notes/assumptions/7.md). Safe: the machine stops where it would have to invent
  a byte. -/
  | byteNotHeld (buf : Buffer)
  deriving DecidableEq, Repr

/-- Why the machine gives an instruction no meaning. -/
inductive Refusal where
  /-- The instruction has no meaning in this model yet. Raised by an arm of exec only; no arm raises it. Safe. -/
  | notModelled (mnemonic : String)
  deriving DecidableEq, Repr

/-- The architectural state of the block (R8), and the model's `result` and `port`. -/
structure State where
  /-- `CRC`, the accumulator of the CRC generator (R9). -/
  crc : Half
  /-- `TX_CMD`, the staged command (R10). -/
  txCmd : Byte
  /-- `TX_ADDR`, the staged address (R10). -/
  txAddr : Half
  /-- `TX_CNT`, 0 to 255, or 256 as the overflow mark (R10). -/
  txCnt : BitVec 9
  /-- `TXBUF`, the staged payload (R11). -/
  txBuf : Memory
  /-- `TXQ`, the bytes of one built frame the line has not yet taken, head first (R12). -/
  txQ : List Byte
  /-- `RX_CNT`, 0 to 263, or 264 as the overflow mark (R14). -/
  rxCnt : BitVec 9
  /-- `RXBUF`, the received bytes (R14). -/
  rxBuf : Memory
  /-- `F_VALID` (the tag) and the frame registers it guards (R15, R20). -/
  frame : Option FrameRegs
  /-- `P_KIND` (the tag) and the payload registers it guards (R16, R20). -/
  interp : Interp
  /-- `ERR`: class in bits 5:4, cause in bits 3:0 (R17). -/
  err : BitVec 6
  /-- The outcome delivered by the last operation (the model's own field). -/
  result : Result
  /-- What the agents issue next, in the order issued (the model's own field). -/
  port : List Issue
  deriving DecidableEq, Repr

/-- The machine right after reset (R23). -/
def State.reset : State where
  crc := 0x0000#16
  txCmd := 0x00#8
  txAddr := 0x0000#16
  txCnt := 0#9
  txBuf := []
  txQ := []
  rxCnt := 0#9
  rxBuf := []
  frame := none
  interp := .none
  err := 0x00#6
  result := .none
  port := []

end Sys2Proof.Machine
end

