-- ==== Sys2Proof/Machine/Tables.lean ====
section
/-! DEFINITION. The code tables of 30_encoding.md: the known opcodes (R40), ack codes (R42) and modes (R43). -/

namespace Sys2Proof.Machine

/-- `b in CMDSET`: `b[7:4]` = 3 and `b` is not 0x36 (R40). -/
def inCmdSet (b : Byte) : Bool :=
  b.extractLsb' 4 4 == 0x3#4 && b != 0x36#8

/-- The members of `ACKSET`: ok, invalid_command, invalid_crc, verify_error, invalid_channel, invalid_param,
general_error (R42). -/
def ackCodes : List Byte :=
  [0x00#8, 0x02#8, 0x03#8, 0x04#8, 0x08#8, 0x09#8, 0x0F#8]

/-- `b in ACKSET` (R42). -/
def inAckSet (b : Byte) : Bool :=
  ackCodes.contains b

/-- A mode byte of the identification payload is known: SiLabsC2, SiLabsBLB, AtmelBLB, AtmelSK (R43, D13). -/
def knownMode (m : Byte) : Bool :=
  decide (m.toNat ≤ 3)

/-- The device family of a mode: 0 silabs for modes 0 and 1, 1 atmel otherwise (R43, R74). -/
def familyOf (m : Byte) : BitVec 1 :=
  if m.toNat ≤ 1 then 0#1 else 1#1

/-- The command whose response payload has a registered shape, `device_init_flash` (R83). -/
def identCmd : Byte := 0x37#8

end Sys2Proof.Machine
end

