-- ==== Sys2Proof/Machine/Codec.lean ====
section
/-! DEFINITION. The pure functions of the codec: the frame layouts (R36, R37), `build_bytes` (R60), `parse_bytes`
(R70) and `interpret_payload` (R74). -/

namespace Sys2Proof.Machine

/-- A frame body followed by its CRC field, high byte first (R26, R36, R37). -/
def withCrc (body : List Byte) (c : Half) : List Byte :=
  body ++ [hi8 c, lo8 c]

/-- The bytes of a request frame before its CRC (R36, R60). -/
def requestBody (cmd : Byte) (addr : Half) (payload : List Byte) : List Byte :=
  [Config.startReq, cmd, hi8 addr, lo8 addr, countByte payload.length] ++ payload

/-- The request frame of these operands, CRC computed (R36). -/
def requestFrame (cmd : Byte) (addr : Half) (payload : List Byte) : List Byte :=
  let body := requestBody cmd addr payload
  withCrc body (crc16 body)

/-- `build_bytes(cmd, addr, payload)` (R60): the opcode is tested before the size (D22). -/
def buildBytes (cmd : Byte) (addr : Half) (payload : List Byte) : Except EncodingCause (List Byte) :=
  if inCmdSet cmd then
    if payload.length ≤ Config.maxPayload then .ok (requestFrame cmd addr payload)
    else .error .oversize
  else .error .opcode

/-- The bytes of a response frame before its CRC, the ack included (R37). -/
def responseBody (cmd : Byte) (addr : Half) (payload : List Byte) (ack : Byte) : List Byte :=
  [Config.startRsp, cmd, hi8 addr, lo8 addr, countByte payload.length] ++ payload ++ [ack]

/-- A byte sequence in the response layout, with whatever CRC field it came with (R37). -/
def responseFrame (cmd : Byte) (addr : Half) (payload : List Byte) (ack : Byte) (crc : Half) : List Byte :=
  withCrc (responseBody cmd addr payload ack) crc

/-- `rsp_bytes(cmd, addr, payload, ack)`: the well-formed response frame of these fields. Notation of the spec
for stating properties; no operation computes it (R77, D26). -/
def rspBytes (cmd : Byte) (addr : Half) (payload : List Byte) (ack : Byte) : List Byte :=
  responseFrame cmd addr payload ack (crc16 (responseBody cmd addr payload ack))

/-- The frame `parse_bytes` returns, its start marker (always 0x2E) and length left to the fields that give
them (R70). -/
structure ParsedFrame where
  cmd : Byte
  addr : Half
  payload : List Byte
  ack : Byte
  crc : Half
  deriving DecidableEq, Repr

/-- `r[i]`; read only below the length of `r`. -/
def byteAt (r : List Byte) (i : Nat) : Byte :=
  r.getD i 0x00#8

/-- `parse_bytes(r)` (R70): the tests in the spec's order, the first that fails decides the cause (R105, D10).
Every index read is below the length by the tests before it. -/
def parseBytes (r : List Byte) : Except DecodingCause ParsedFrame :=
  let n := r.length
  let l := (byteAt r 4).toNat
  if n = 0 then .error .empty
  else if n < 5 then .error .length
  else if n ≠ 8 + l then .error .length
  else if !inCmdSet (byteAt r 1) then .error .opcode
  else if !inAckSet (byteAt r (5 + l)) then .error .ack
  else if byteAt r 0 ≠ Config.startRsp then .error .marker
  else if crc16 (r.take (n - 2)) ≠ be16 (byteAt r (n - 2)) (byteAt r (n - 1)) then .error .crc
  else .ok
    { cmd := byteAt r 1
      addr := be16 (byteAt r 2) (byteAt r 3)
      payload := (r.drop 5).take l
      ack := byteAt r (5 + l)
      crc := crc16 (r.take (n - 2)) }

/-- What `interpret_payload` answers: the identification payload or the raw bytes unchanged (R74). -/
inductive Interpretation where
  | ident (r : IdentRegs)
  | raw (payload : List Byte)
  deriving DecidableEq, Repr

/-- `interpret_payload(frame)` (R74): the response-direction table has the one entry `device_init_flash` (R83),
whose payload is exactly signature, signature, boot message, known mode. The ack is not looked at (N10). -/
def interpretPayload (cmd : Byte) (payload : List Byte) : Except DecodingCause Interpretation :=
  if cmd = identCmd then
    match payload with
    | [sig0, sig1, boot, m] =>
      if knownMode m then
        .ok (.ident { sig0 := sig0, sig1 := sig1, boot := boot, mode := m.setWidth 2, family := familyOf m })
      else .error .payload
    | _ => .error .payload
  else .ok (.raw payload)

end Sys2Proof.Machine
end

