-- ==== Sys2Proof/Syntax.lean ====
section
/-! DEFINITION. The instructions of CRC16-FC, one constructor per row of spec/opcode_table.json: the thirteen
operation words (R45), the fifteen request frames (R36, R85 to R99) and the fifteen response frames (R37, R85 to
R99). The start marker, the command opcode and the length byte of a frame are not operands: the first two are the
row, the third is the number of payload bytes. A request frame's CRC is not an operand either: the encoder
computes it (R60; notes/assumptions/10.md). A response frame's ack and CRC are operands: the decoder judges
them (R70). -/

namespace Sys2Proof

/-- An instruction, with its operands in the order the spec writes them. -/
inductive Instr where
  /-- `CRC.INIT` (R54). -/
  | crcInit
  /-- `CRC.BYTE b` (R55). -/
  | crcByte (b : Byte)
  /-- `TX.NEW cmd, addr` (R61). -/
  | txNew (cmd : Byte) (addr : Half)
  /-- `TX.PUSH b` (R62). -/
  | txPush (b : Byte)
  /-- `TX.BUILD` (R63). -/
  | txBuild
  /-- `LINE.TAKE` (R65). -/
  | lineTake
  /-- `RX.CLR` (R71). -/
  | rxClr
  /-- `RX.PUSH b` (R72). -/
  | rxPush (b : Byte)
  /-- `RX.PARSE` (R73). -/
  | rxParse
  /-- `RX.PAYLOAD` (R75). -/
  | rxPayload
  /-- `RD reg` (R79). -/
  | rd (reg : Byte)
  /-- `RD.PL i` (R80). -/
  | rdPl (i : Byte)
  /-- `ERR.CLR` (R81). -/
  | errClr
  /-- The request frame of `interface_test_alive`, `2F 30` (R85). -/
  | interfaceTestAliveReq (addr : Half) (payload : List Byte)
  /-- The request frame of `protocol_get_version`, `2F 31` (R86). -/
  | protocolGetVersionReq (addr : Half) (payload : List Byte)
  /-- The request frame of `interface_get_name`, `2F 32` (R87). -/
  | interfaceGetNameReq (addr : Half) (payload : List Byte)
  /-- The request frame of `interface_get_version`, `2F 33` (R88). -/
  | interfaceGetVersionReq (addr : Half) (payload : List Byte)
  /-- The request frame of `interface_exit`, `2F 34` (R89). -/
  | interfaceExitReq (addr : Half) (payload : List Byte)
  /-- The request frame of `device_reset`, `2F 35` (R90). -/
  | deviceResetReq (addr : Half) (payload : List Byte)
  /-- The request frame of `device_init_flash`, `2F 37` (R91). -/
  | deviceInitFlashReq (addr : Half) (payload : List Byte)
  /-- The request frame of `device_erase_all`, `2F 38` (R92). -/
  | deviceEraseAllReq (addr : Half) (payload : List Byte)
  /-- The request frame of `device_page_erase`, `2F 39` (R93). -/
  | devicePageEraseReq (addr : Half) (payload : List Byte)
  /-- The request frame of `device_read`, `2F 3A` (R94). -/
  | deviceReadReq (addr : Half) (payload : List Byte)
  /-- The request frame of `device_write`, `2F 3B` (R95). -/
  | deviceWriteReq (addr : Half) (payload : List Byte)
  /-- The request frame of `device_c2ck_low`, `2F 3C` (R96). -/
  | deviceC2ckLowReq (addr : Half) (payload : List Byte)
  /-- The request frame of `device_read_eeprom`, `2F 3D` (R97). -/
  | deviceReadEepromReq (addr : Half) (payload : List Byte)
  /-- The request frame of `device_write_eeprom`, `2F 3E` (R98). -/
  | deviceWriteEepromReq (addr : Half) (payload : List Byte)
  /-- The request frame of `interface_set_mode`, `2F 3F` (R99). -/
  | interfaceSetModeReq (addr : Half) (payload : List Byte)
  /-- The response frame of `interface_test_alive`, `2E 30` (R85). -/
  | interfaceTestAliveRsp (addr : Half) (payload : List Byte) (ack : Byte) (crc : Half)
  /-- The response frame of `protocol_get_version`, `2E 31` (R86). -/
  | protocolGetVersionRsp (addr : Half) (payload : List Byte) (ack : Byte) (crc : Half)
  /-- The response frame of `interface_get_name`, `2E 32` (R87). -/
  | interfaceGetNameRsp (addr : Half) (payload : List Byte) (ack : Byte) (crc : Half)
  /-- The response frame of `interface_get_version`, `2E 33` (R88). -/
  | interfaceGetVersionRsp (addr : Half) (payload : List Byte) (ack : Byte) (crc : Half)
  /-- The response frame of `interface_exit`, `2E 34` (R89). -/
  | interfaceExitRsp (addr : Half) (payload : List Byte) (ack : Byte) (crc : Half)
  /-- The response frame of `device_reset`, `2E 35` (R90). -/
  | deviceResetRsp (addr : Half) (payload : List Byte) (ack : Byte) (crc : Half)
  /-- The response frame of `device_init_flash`, `2E 37` (R91). -/
  | deviceInitFlashRsp (addr : Half) (payload : List Byte) (ack : Byte) (crc : Half)
  /-- The response frame of `device_erase_all`, `2E 38` (R92). -/
  | deviceEraseAllRsp (addr : Half) (payload : List Byte) (ack : Byte) (crc : Half)
  /-- The response frame of `device_page_erase`, `2E 39` (R93). -/
  | devicePageEraseRsp (addr : Half) (payload : List Byte) (ack : Byte) (crc : Half)
  /-- The response frame of `device_read`, `2E 3A` (R94). -/
  | deviceReadRsp (addr : Half) (payload : List Byte) (ack : Byte) (crc : Half)
  /-- The response frame of `device_write`, `2E 3B` (R95). -/
  | deviceWriteRsp (addr : Half) (payload : List Byte) (ack : Byte) (crc : Half)
  /-- The response frame of `device_c2ck_low`, `2E 3C` (R96). -/
  | deviceC2ckLowRsp (addr : Half) (payload : List Byte) (ack : Byte) (crc : Half)
  /-- The response frame of `device_read_eeprom`, `2E 3D` (R97). -/
  | deviceReadEepromRsp (addr : Half) (payload : List Byte) (ack : Byte) (crc : Half)
  /-- The response frame of `device_write_eeprom`, `2E 3E` (R98). -/
  | deviceWriteEepromRsp (addr : Half) (payload : List Byte) (ack : Byte) (crc : Half)
  /-- The response frame of `interface_set_mode`, `2E 3F` (R99). -/
  | interfaceSetModeRsp (addr : Half) (payload : List Byte) (ack : Byte) (crc : Half)
  deriving DecidableEq, Repr

end Sys2Proof
end

