-- ==== Sys2Proof/Decode.lean ====
section
/-! DEFINITION. The decoder and, after it, the encoder. Two things are encoded (30_encoding.md): operation words
(R45) and frames (R36, R37). A frame's row is chosen by its first two bytes (R51); its length byte says where it
ends (R38). Decoding is total and refuses by name. -/

namespace Sys2Proof

open Sys2Proof.Machine

/-- The two shapes an instruction is encoded in (R45, R51). -/
inductive Code where
  /-- Format `OPW`. -/
  | word (w : BitVec 32)
  /-- Formats `REQ` and `RSP`: the bytes in frame order. -/
  | frame (bytes : List Byte)
  deriving DecidableEq, Repr

/-- Why a code, or an issue, spells no instruction. -/
inductive DecodeError where
  /-- `OP` 0x0, 0xE or 0xF (R46). -/
  | illegalOp (op : BitVec 4)
  /-- Not the request and not the response layout (R35 to R38). -/
  | badLayout
  /-- The layout of a frame, with a command that is not in `CMDSET` (R44, R51). -/
  | unknownOpcode (cmd : Byte)
  /-- A call of `build` is several operations, not one (R48). -/
  | expands
  /-- The reset input is no instruction (R113). -/
  | resetInput
  deriving DecidableEq, Repr

/-- `OP = w[31:28]` (R45). -/
def opField (w : OpWord) : BitVec 4 := w.extractLsb' 28 4

/-- `A = w[23:16]` (R45). -/
def aField (w : OpWord) : Byte := w.extractLsb' 16 8

/-- `B = w[15:0]` (R45). -/
def bField (w : OpWord) : Half := w.extractLsb' 0 16

/-- The operation a word selects; bits 27:24 and unused operand fields are ignored (R45, R46). -/
def decodeWord (w : OpWord) : Except DecodeError Instr :=
  match (opField w).toNat with
  | 0x1 => .ok .crcInit
  | 0x2 => .ok (.crcByte (aField w))
  | 0x3 => .ok (.txNew (aField w) (bField w))
  | 0x4 => .ok (.txPush (aField w))
  | 0x5 => .ok .txBuild
  | 0x6 => .ok .lineTake
  | 0x7 => .ok .rxClr
  | 0x8 => .ok (.rxPush (aField w))
  | 0x9 => .ok .rxParse
  | 0xA => .ok .rxPayload
  | 0xB => .ok (.rd (aField w))
  | 0xC => .ok (.rdPl (aField w))
  | 0xD => .ok .errClr
  | _ => .error (.illegalOp (opField w))

/-- The request row of an opcode (R41, R51). -/
def requestInstr (cmd : Byte) (addr : Half) (payload : List Byte) : Option Instr :=
  match cmd.toNat with
  | 0x30 => some (.interfaceTestAliveReq addr payload)
  | 0x31 => some (.protocolGetVersionReq addr payload)
  | 0x32 => some (.interfaceGetNameReq addr payload)
  | 0x33 => some (.interfaceGetVersionReq addr payload)
  | 0x34 => some (.interfaceExitReq addr payload)
  | 0x35 => some (.deviceResetReq addr payload)
  | 0x37 => some (.deviceInitFlashReq addr payload)
  | 0x38 => some (.deviceEraseAllReq addr payload)
  | 0x39 => some (.devicePageEraseReq addr payload)
  | 0x3A => some (.deviceReadReq addr payload)
  | 0x3B => some (.deviceWriteReq addr payload)
  | 0x3C => some (.deviceC2ckLowReq addr payload)
  | 0x3D => some (.deviceReadEepromReq addr payload)
  | 0x3E => some (.deviceWriteEepromReq addr payload)
  | 0x3F => some (.interfaceSetModeReq addr payload)
  | _ => none

/-- The response row of an opcode (R41, R51). -/
def responseInstr (cmd : Byte) (addr : Half) (payload : List Byte) (ack : Byte) (crc : Half) : Option Instr :=
  match cmd.toNat with
  | 0x30 => some (.interfaceTestAliveRsp addr payload ack crc)
  | 0x31 => some (.protocolGetVersionRsp addr payload ack crc)
  | 0x32 => some (.interfaceGetNameRsp addr payload ack crc)
  | 0x33 => some (.interfaceGetVersionRsp addr payload ack crc)
  | 0x34 => some (.interfaceExitRsp addr payload ack crc)
  | 0x35 => some (.deviceResetRsp addr payload ack crc)
  | 0x37 => some (.deviceInitFlashRsp addr payload ack crc)
  | 0x38 => some (.deviceEraseAllRsp addr payload ack crc)
  | 0x39 => some (.devicePageEraseRsp addr payload ack crc)
  | 0x3A => some (.deviceReadRsp addr payload ack crc)
  | 0x3B => some (.deviceWriteRsp addr payload ack crc)
  | 0x3C => some (.deviceC2ckLowRsp addr payload ack crc)
  | 0x3D => some (.deviceReadEepromRsp addr payload ack crc)
  | 0x3E => some (.deviceWriteEepromRsp addr payload ack crc)
  | 0x3F => some (.interfaceSetModeRsp addr payload ack crc)
  | _ => none

/-- Command, address and payload of a byte sequence in the request layout (R36, R39); the two CRC bytes are the
encoder's to compute and are not read (notes/assumptions/10.md). -/
def splitRequest (f : List Byte) : Option (Byte × Half × List Byte) :=
  match f with
  | start :: cmd :: ah :: al :: len :: rest =>
    if start = Config.startReq then
      match rest.drop len.toNat with
      | [_, _] => some (cmd, be16 ah al, rest.take len.toNat)
      | _ => none
    else none
  | _ => none

/-- Command, address, payload, ack and CRC of a byte sequence in the response layout (R37, R39). -/
def splitResponse (f : List Byte) : Option (Byte × Half × List Byte × Byte × Half) :=
  match f with
  | start :: cmd :: ah :: al :: len :: rest =>
    if start = Config.startRsp then
      match rest.drop len.toNat with
      | [ack, ch, cl] => some (cmd, be16 ah al, rest.take len.toNat, ack, be16 ch cl)
      | _ => none
    else none
  | _ => none

/-- The row and operands of a response byte sequence (R37, R51). -/
def decodeResponse (f : List Byte) : Except DecodeError Instr :=
  match splitResponse f with
  | some (cmd, addr, payload, ack, crc) =>
    match responseInstr cmd addr payload ack crc with
    | some i => .ok i
    | none => .error (.unknownOpcode cmd)
  | none => .error .badLayout

/-- The row and operands of the request frame that `build(cmd, addr, payload)` makes (R48, R51). -/
def decodeBuild (cmd : Byte) (addr : Half) (payload : List Byte) : Except DecodeError Instr :=
  match requestInstr cmd addr payload with
  | some i => .ok i
  | none => .error (.unknownOpcode cmd)

/-- The frame row a byte sequence spells, told apart by the start marker (R35, R51). -/
def decodeFrame (f : List Byte) : Except DecodeError Instr :=
  match splitRequest f with
  | some (cmd, addr, payload) => decodeBuild cmd addr payload
  | none => decodeResponse f

/-- The instruction a code spells. -/
def decode (c : Code) : Except DecodeError Instr :=
  match c with
  | .word w => decodeWord w
  | .frame f => decodeFrame f

/-- The issue by which an agent gives the block a code: a request frame as the operands `build` takes, any other
byte sequence as received bytes (R48, R49). -/
def Code.issue (c : Code) : Issue :=
  match c with
  | .word w => .word w
  | .frame f =>
    match splitRequest f with
    | some (cmd, addr, payload) => .build cmd addr payload
    | none => .parse f

/-- The instruction an issue asks for, if it spells a row of the table. -/
def decodeIssue (q : Issue) : Except DecodeError Instr :=
  match q with
  | .word w => decodeWord w
  | .build cmd addr payload => decodeBuild cmd addr payload
  | .buildCall _ _ _ => .error .expands
  | .parse f => decodeResponse f
  | .rst => .error .resetInput

/-- The code whose bits are `w`, numbered as spec/opcode_table.json numbers them: 32 bits are an operation word,
16 bits the first two bytes `[f0, f1]` of a frame as the number f0 * 256 + f1 (R51), every later byte 0, so that
the length byte is 0 and the frame has 7 or 8 bytes (R38). -/
def tableCode (nbits w : Nat) : Option Code :=
  if nbits = 32 then some (.word (BitVec.ofNat 32 w))
  else if nbits = 16 then
    let start : Byte := BitVec.ofNat 8 (w / 256)
    let zeros := if start = Config.startRsp then 6 else 5
    some (.frame (start :: BitVec.ofNat 8 w :: List.replicate zeros 0x00#8))
  else none

/-- The instruction the decoder reads from the table's bits `w`. -/
def decodeTableWord (nbits w : Nat) : Option Instr :=
  match tableCode nbits w with
  | some c =>
    match decode c with
    | .ok i => some i
    | .error _ => none
  | none => none

/-- An operation word with the ignored bits 27:24 zero (R45). -/
def opWord (op : BitVec 4) (a : Byte) (b : Half) : OpWord :=
  op ++ 0x0#4 ++ a ++ b

/-- The code of an instruction: an operation word with unused fields zero (R45), a request frame with its CRC
(R36), or a response frame (R37). -/
def encode (i : Instr) : Code :=
  match i with
  | .crcInit => .word (opWord 0x1 0 0)
  | .crcByte b => .word (opWord 0x2 b 0)
  | .txNew cmd addr => .word (opWord 0x3 cmd addr)
  | .txPush b => .word (opWord 0x4 b 0)
  | .txBuild => .word (opWord 0x5 0 0)
  | .lineTake => .word (opWord 0x6 0 0)
  | .rxClr => .word (opWord 0x7 0 0)
  | .rxPush b => .word (opWord 0x8 b 0)
  | .rxParse => .word (opWord 0x9 0 0)
  | .rxPayload => .word (opWord 0xA 0 0)
  | .rd reg => .word (opWord 0xB reg 0)
  | .rdPl i => .word (opWord 0xC i 0)
  | .errClr => .word (opWord 0xD 0 0)
  | .interfaceTestAliveReq addr payload => .frame (requestFrame 0x30 addr payload)
  | .protocolGetVersionReq addr payload => .frame (requestFrame 0x31 addr payload)
  | .interfaceGetNameReq addr payload => .frame (requestFrame 0x32 addr payload)
  | .interfaceGetVersionReq addr payload => .frame (requestFrame 0x33 addr payload)
  | .interfaceExitReq addr payload => .frame (requestFrame 0x34 addr payload)
  | .deviceResetReq addr payload => .frame (requestFrame 0x35 addr payload)
  | .deviceInitFlashReq addr payload => .frame (requestFrame 0x37 addr payload)
  | .deviceEraseAllReq addr payload => .frame (requestFrame 0x38 addr payload)
  | .devicePageEraseReq addr payload => .frame (requestFrame 0x39 addr payload)
  | .deviceReadReq addr payload => .frame (requestFrame 0x3A addr payload)
  | .deviceWriteReq addr payload => .frame (requestFrame 0x3B addr payload)
  | .deviceC2ckLowReq addr payload => .frame (requestFrame 0x3C addr payload)
  | .deviceReadEepromReq addr payload => .frame (requestFrame 0x3D addr payload)
  | .deviceWriteEepromReq addr payload => .frame (requestFrame 0x3E addr payload)
  | .interfaceSetModeReq addr payload => .frame (requestFrame 0x3F addr payload)
  | .interfaceTestAliveRsp addr payload ack crc => .frame (responseFrame 0x30 addr payload ack crc)
  | .protocolGetVersionRsp addr payload ack crc => .frame (responseFrame 0x31 addr payload ack crc)
  | .interfaceGetNameRsp addr payload ack crc => .frame (responseFrame 0x32 addr payload ack crc)
  | .interfaceGetVersionRsp addr payload ack crc => .frame (responseFrame 0x33 addr payload ack crc)
  | .interfaceExitRsp addr payload ack crc => .frame (responseFrame 0x34 addr payload ack crc)
  | .deviceResetRsp addr payload ack crc => .frame (responseFrame 0x35 addr payload ack crc)
  | .deviceInitFlashRsp addr payload ack crc => .frame (responseFrame 0x37 addr payload ack crc)
  | .deviceEraseAllRsp addr payload ack crc => .frame (responseFrame 0x38 addr payload ack crc)
  | .devicePageEraseRsp addr payload ack crc => .frame (responseFrame 0x39 addr payload ack crc)
  | .deviceReadRsp addr payload ack crc => .frame (responseFrame 0x3A addr payload ack crc)
  | .deviceWriteRsp addr payload ack crc => .frame (responseFrame 0x3B addr payload ack crc)
  | .deviceC2ckLowRsp addr payload ack crc => .frame (responseFrame 0x3C addr payload ack crc)
  | .deviceReadEepromRsp addr payload ack crc => .frame (responseFrame 0x3D addr payload ack crc)
  | .deviceWriteEepromRsp addr payload ack crc => .frame (responseFrame 0x3E addr payload ack crc)
  | .interfaceSetModeRsp addr payload ack crc => .frame (responseFrame 0x3F addr payload ack crc)

end Sys2Proof
end

