-- ==== Sys2Proof/Machine/Flags.lean ====
section
/-! DEFINITION. The status and error words: `ERR`'s class and cause numbers (R17, R101) and the computed views
`F_VALID`, `P_KIND` and `STATUS` (R18). -/

namespace Sys2Proof.Machine

/-- The cause number of an EncodingError (R101, D9). -/
def encodingCauseNo (c : EncodingCause) : BitVec 4 :=
  match c with
  | .opcode => 1#4
  | .oversize => 2#4

/-- The cause number of a DecodingError (R101, D9). -/
def decodingCauseNo (c : DecodingCause) : BitVec 4 :=
  match c with
  | .empty => 1#4
  | .length => 2#4
  | .opcode => 3#4
  | .ack => 4#4
  | .marker => 5#4
  | .crc => 6#4
  | .payload => 7#4

/-- The value of `ERR` an error leaves, from the one before: class 1 or 2 above the cause number; a UsageFault
is not recorded (R17, R101). -/
def errAfter (r : Raised) (old : BitVec 6) : BitVec 6 :=
  match r with
  | .encoding c => 1#2 ++ encodingCauseNo c
  | .decoding c => 2#2 ++ decodingCauseNo c
  | .usage _ => old

/-- `F_VALID` (R15). -/
def State.fValid (s : State) : Bool :=
  s.frame.isSome

/-- `P_KIND` (R16). -/
def State.pKind (s : State) : BitVec 2 :=
  match s.interp with
  | .none => 0#2
  | .raw => 1#2
  | .ident _ => 2#2

/-- `STATUS.DEV_ERR`: a frame is held and its ack is not 0x00 (R18). -/
def State.devErr (s : State) : Bool :=
  match s.frame with
  | some f => f.ack != 0x00#8
  | none => false

/-- `STATUS.TX_OVF` (R18). -/
def State.txOvf (s : State) : Bool :=
  s.txCnt == 256#9

/-- `STATUS.RX_OVF` (R18). -/
def State.rxOvf (s : State) : Bool :=
  s.rxCnt == 264#9

/-- `STATUS.TXQ_NE` (R18). -/
def State.txqNe (s : State) : Bool :=
  !s.txQ.isEmpty

/-- A flag as one bit. -/
def flagBit (b : Bool) : BitVec 1 :=
  BitVec.ofBool b

/-- `STATUS`, bit 7 first: 0, `P_KIND`, `TXQ_NE`, `RX_OVF`, `TX_OVF`, `DEV_ERR`, `F_VALID` (R18). -/
def State.statusWord (s : State) : BitVec 8 :=
  0#1 ++ s.pKind ++ flagBit s.txqNe ++ flagBit s.rxOvf ++ flagBit s.txOvf ++ flagBit s.devErr ++ flagBit s.fValid

end Sys2Proof.Machine
end

