-- ==== Sys2Proof/Machine/Ops.lean ====
section
/-! DEFINITION. The shared operations: the byte stores (20_memory.md), raising an error and holding (R106, R107),
the steps of the encoder (R61 to R65) and of the decoder (R71 to R75), and reset (R113). -/

namespace Sys2Proof.Machine

/-- The form every byte store has: indices strictly rising. An unlisted index holds no value, so no listed cell
can equal what an unlisted one reads as (R20). -/
abbrev Memory.wf (m : Memory) : Prop :=
  m.Pairwise (fun x y => x.1 < y.1)

/-- `MemRead(BUF, i, 1)`; `none` where the index holds no value (R20, R27). -/
def Memory.read (m : Memory) (i : Nat) : Option Byte :=
  match m with
  | [] => none
  | (j, b) :: rest => if j = i then some b else Memory.read rest i

/-- `MemWrite(BUF, i, 1, v)`, in the one canonical form (R27). -/
def Memory.write (m : Memory) (i : Nat) (v : Byte) : Memory :=
  match m with
  | [] => [(i, v)]
  | (j, b) :: rest =>
    if i < j then (i, v) :: (j, b) :: rest
    else if i = j then (i, v) :: rest
    else (j, b) :: Memory.write rest i v

/-- `[MemRead(BUF, i, 1) for i from start to start + n - 1]`; `none` where one of them holds no value. -/
def Memory.readFrom (m : Memory) (start n : Nat) : Option (List Byte) :=
  match n with
  | 0 => some []
  | n + 1 =>
    match m.read start with
    | none => none
    | some b =>
      match Memory.readFrom m (start + 1) n with
      | none => none
      | some bs => some (b :: bs)

/-- `MemWrite(BUF, start + k, 1, bytes[k])` for each `k` in order. -/
def Memory.writeFrom (m : Memory) (start : Nat) (bytes : List Byte) : Memory :=
  match bytes with
  | [] => m
  | b :: bs => Memory.writeFrom (m.write start b) (start + 1) bs

/-- The operation ends with outcome `r` and no further state change. -/
def State.finish (s : State) (r : Result) : State :=
  { s with result := r }

/-- Raising an error, the one shared operation (R106). An EncodingError changes `ERR` only. A DecodingError of
`RX.PARSE` changes `ERR`, clears `F_VALID` and `P_KIND`; the one of `RX.PAYLOAD` (`D_PAYLOAD`) changes `ERR` and
clears `P_KIND`. A UsageFault changes nothing. The outcome goes to the issuer; control goes nowhere, and there
is nothing to return from (R108). -/
def State.raise (s : State) (r : Raised) : State :=
  let recorded := { s with err := errAfter r s.err, result := .raised r }
  match r with
  | .encoding _ => recorded
  | .decoding .payload => { recorded with interp := .none }
  | .decoding _ => { recorded with frame := none, interp := .none }
  | .usage _ => recorded

/-- Holding: no state change at all (R107). -/
def State.hold (s : State) (h : Hold) : State :=
  s.finish (.held h)

/-- `TX.NEW` (R61): no index of `TXBUF` holds a value afterwards. -/
def State.stageNew (s : State) (cmd : Byte) (addr : Half) : State :=
  { s with txCmd := cmd, txAddr := addr, txCnt := 0#9, txBuf := [] }

/-- `TX.PUSH` (R62): the store is to index `TX_CNT`; the 256th byte sets the overflow mark. -/
def State.stagePush (s : State) (b : Byte) : State :=
  if s.txCnt.toNat < Config.maxPayload then
    { s with txBuf := s.txBuf.write s.txCnt.toNat b, txCnt := s.txCnt + 1#9 }
  else if s.txCnt.toNat = Config.maxPayload then
    { s with txCnt := 256#9 }
  else s

/-- `TX.BUILD` (R63): opcode, size, `Busy`, in this order (R105). -/
def State.buildFrame (s : State) : Host.Outcome State Fault Refusal :=
  if !inCmdSet s.txCmd then .next (s.raise (.encoding .opcode))
  else if Config.maxPayload < s.txCnt.toNat then .next (s.raise (.encoding .oversize))
  else if !s.txQ.isEmpty then .next (s.hold .busy)
  else
    match s.txBuf.readFrom 0 s.txCnt.toNat with
    | none => .fault (.byteNotHeld .txBuf)
    | some payload => .next ({ s with txQ := requestFrame s.txCmd s.txAddr payload }.finish .ok)

/-- `LINE.TAKE` (R65): the head of `TXQ` is removed and returned. -/
def State.takeByte (s : State) : State :=
  match s.txQ with
  | [] => s.hold .empty
  | b :: rest => { s with txQ := rest }.finish (.byte b)

/-- `RX.CLR` (R71): no index of `RXBUF` holds a value afterwards. -/
def State.clearReceived (s : State) : State :=
  { s with rxCnt := 0#9, rxBuf := [] }

/-- `RX.PUSH` (R72): the store is to index `RX_CNT`; the 264th byte sets the overflow mark. -/
def State.receive (s : State) (b : Byte) : State :=
  if s.rxCnt.toNat < Config.rxDepth then
    { s with rxBuf := s.rxBuf.write s.rxCnt.toNat b, rxCnt := s.rxCnt + 1#9 }
  else if s.rxCnt.toNat = Config.rxDepth then
    { s with rxCnt := 264#9 }
  else s

/-- The frame registers of an accepted frame (R73). -/
def frameRegsOf (p : ParsedFrame) : FrameRegs where
  start := Config.startRsp
  cmd := p.cmd
  addr := p.addr
  len := countByte p.payload.length
  pl := Memory.writeFrom [] 0 p.payload
  ack := p.ack
  crc := p.crc

/-- `RX.PARSE` after the bytes have been judged (R73): either way `P_KIND` is 0 afterwards. -/
def State.judge (s : State) (verdict : Except DecodingCause ParsedFrame) : State :=
  match verdict with
  | .error c => s.raise (.decoding c)
  | .ok p => { s with frame := some (frameRegsOf p), interp := .none }.finish .ok

/-- `RX.PARSE` (R73): an overflowed buffer is `D_LENGTH`. -/
def State.parseReceived (s : State) : Host.Outcome State Fault Refusal :=
  if Config.rxDepth < s.rxCnt.toNat then .next (s.judge (.error .length))
  else
    match s.rxBuf.readFrom 0 s.rxCnt.toNat with
    | none => .fault (.byteNotHeld .rxBuf)
    | some r => .next (s.judge (parseBytes r))

/-- `RX.PAYLOAD` (R75). -/
def State.interpretFrame (s : State) : Host.Outcome State Fault Refusal :=
  match s.frame with
  | none => .next (s.raise (.usage .noValue))
  | some f =>
    match f.pl.readFrom 0 f.len.toNat with
    | none => .fault (.byteNotHeld .fPl)
    | some payload =>
      match interpretPayload f.cmd payload with
      | .error c => .next (s.raise (.decoding c))
      | .ok (.ident r) => .next ({ s with interp := .ident r }.finish .ok)
      | .ok (.raw _) => .next ({ s with interp := .raw }.finish .ok)

/-- The pseudo-instruction `build` up to and with its `TX.BUILD` (R48): the request frame of these operands. -/
def State.buildRequest (s : State) (cmd : Byte) (addr : Half) (payload : List Byte) :
    Host.Outcome State Fault Refusal :=
  (payload.foldl State.stagePush (s.stageNew cmd addr)).buildFrame

/-- The pseudo-instruction `parse` (R49): `RX.CLR`, one `RX.PUSH` for each byte, `RX.PARSE`. -/
def State.parseSequence (s : State) (bytes : List Byte) : Host.Outcome State Fault Refusal :=
  (bytes.foldl State.receive s.clearReceived).parseReceived

/-- Reset (R113): every piece of the block's state goes to its reset value; what the agents issue next is theirs
and stays. -/
def State.applyReset (s : State) : State :=
  { State.reset with port := s.port }

/-- The next issue and the state without it; `none` where nothing is issued (R7, R13). -/
def State.fetch (s : State) : Option (Issue × State) :=
  match s.port with
  | [] => none
  | q :: rest => some (q, { s with port := rest })

end Sys2Proof.Machine
end

