-- ==== Sys2Proof/Machine/Operands.lean ====
section
/-! DEFINITION. The operand forms that name state: the register number of `RD` (R19, R79) and the payload index
of `RD.PL` (R80). The other operands are immediate values in the word (R45). -/

namespace Sys2Proof.Machine

/-- A frame register as `RD` reads it: `U_NO_VALUE` while `F_VALID` = 0 (R19, R79). -/
def State.readFrameReg (s : State) (view : FrameRegs → Half) : Except UsageCause Half :=
  match s.frame with
  | some f => .ok (view f)
  | none => .error .noValue

/-- A payload register as `RD` reads it: `U_NO_VALUE` while `P_KIND` is not 2 (R19, R79). -/
def State.readIdentReg (s : State) (view : IdentRegs → Half) : Except UsageCause Half :=
  match s.interp with
  | .ident r => .ok (view r)
  | .raw => .error .noValue
  | .none => .error .noValue

/-- The register numbered `reg`, zero-extended to 16 bits: the map of R19. -/
def State.readReg (s : State) (reg : Byte) : Except UsageCause Half :=
  match reg.toNat with
  | 0x00 => .ok s.crc
  | 0x01 => .ok (s.statusWord.setWidth 16)
  | 0x02 => .ok (s.err.setWidth 16)
  | 0x03 => .ok (s.txCmd.setWidth 16)
  | 0x04 => .ok s.txAddr
  | 0x05 => .ok (s.txCnt.setWidth 16)
  | 0x06 => .ok ((BitVec.ofNat 9 s.txQ.length).setWidth 16)
  | 0x07 => .ok (s.rxCnt.setWidth 16)
  | 0x08 => s.readFrameReg (fun f => f.start.setWidth 16)
  | 0x09 => s.readFrameReg (fun f => f.cmd.setWidth 16)
  | 0x0A => s.readFrameReg (fun f => f.addr)
  | 0x0B => s.readFrameReg (fun f => f.len.setWidth 16)
  | 0x0C => s.readFrameReg (fun f => f.ack.setWidth 16)
  | 0x0D => s.readFrameReg (fun f => f.crc)
  | 0x0E => s.readIdentReg (fun r => r.sig0.setWidth 16)
  | 0x0F => s.readIdentReg (fun r => r.sig1.setWidth 16)
  | 0x10 => s.readIdentReg (fun r => r.boot.setWidth 16)
  | 0x11 => s.readIdentReg (fun r => r.mode.setWidth 16)
  | 0x12 => s.readIdentReg (fun r => r.family.setWidth 16)
  | _ => .error .badReg

/-- `RD` (R79): no outcome changes any state. -/
def State.readRegister (s : State) (reg : Byte) : State :=
  match s.readReg reg with
  | .ok v => s.finish (.value v)
  | .error c => s.raise (.usage c)

/-- `RD.PL` (R80): no outcome changes any state. -/
def State.readPayloadByte (s : State) (i : Byte) : Host.Outcome State Fault Refusal :=
  match s.frame with
  | none => .next (s.raise (.usage .noValue))
  | some f =>
    if f.len.toNat ≤ i.toNat then .next (s.raise (.usage .badIndex))
    else
      match f.pl.read i.toNat with
      | none => .fault (.byteNotHeld .fPl)
      | some b => .next (s.finish (.value (b.setWidth 16)))

end Sys2Proof.Machine
end

