-- ==== Sys2Proof/Machine/Access.lean ====
section
/-! DEFINITION. The three access operations (43_access.md). -/

namespace Sys2Proof.Machine

/-- `RD reg` (R79). -/
def execRd (reg : Byte) (s : State) : Host.Outcome State Fault Refusal :=
  .next (s.readRegister reg)

/-- `RD.PL i` (R80). -/
def execRdPl (i : Byte) (s : State) : Host.Outcome State Fault Refusal :=
  s.readPayloadByte i

/-- `ERR.CLR` (R81). -/
def execErrClr (s : State) : Host.Outcome State Fault Refusal :=
  .next ({ s with err := 0x00#6 }.finish .ok)

end Sys2Proof.Machine
end

