-- ==== Sys2Proof/Machine/CrcGenerator.lean ====
section
/-! DEFINITION. The two operations of the CRC generator (40_crc.md). -/

namespace Sys2Proof.Machine

/-- `CRC.INIT` (R54). -/
def execCrcInit (s : State) : Host.Outcome State Fault Refusal :=
  .next ({ s with crc := Config.crcInit }.finish .ok)

/-- `CRC.BYTE b` (R55). -/
def execCrcByte (b : Byte) (s : State) : Host.Outcome State Fault Refusal :=
  .next ({ s with crc := crcStep s.crc b }.finish .ok)

end Sys2Proof.Machine
end

