-- ==== Sys2Proof/Machine/FrameDecoder.lean ====
section
/-! DEFINITION. The four operations of the frame decoder (42_decoder.md). -/

namespace Sys2Proof.Machine

/-- `RX.CLR` (R71). -/
def execRxClr (s : State) : Host.Outcome State Fault Refusal :=
  .next (s.clearReceived.finish .ok)

/-- `RX.PUSH b` (R72): `ok` also on overflow. -/
def execRxPush (b : Byte) (s : State) : Host.Outcome State Fault Refusal :=
  .next ((s.receive b).finish .ok)

/-- `RX.PARSE` (R73). -/
def execRxParse (s : State) : Host.Outcome State Fault Refusal :=
  s.parseReceived

/-- `RX.PAYLOAD` (R75). -/
def execRxPayload (s : State) : Host.Outcome State Fault Refusal :=
  s.interpretFrame

end Sys2Proof.Machine
end

