-- ==== Sys2Proof/Machine/FrameEncoder.lean ====
section
/-! DEFINITION. The four operations of the frame encoder (41_encoder.md). -/

namespace Sys2Proof.Machine

/-- `TX.NEW cmd, addr` (R61). -/
def execTxNew (cmd : Byte) (addr : Half) (s : State) : Host.Outcome State Fault Refusal :=
  .next ((s.stageNew cmd addr).finish .ok)

/-- `TX.PUSH b` (R62): `ok` also on overflow. -/
def execTxPush (b : Byte) (s : State) : Host.Outcome State Fault Refusal :=
  .next ((s.stagePush b).finish .ok)

/-- `TX.BUILD` (R63). -/
def execTxBuild (s : State) : Host.Outcome State Fault Refusal :=
  s.buildFrame

/-- `LINE.TAKE` (R65). -/
def execLineTake (s : State) : Host.Outcome State Fault Refusal :=
  .next s.takeByte

end Sys2Proof.Machine
end

