-- ==== Sys2Proof/Machine/RequestFrames.lean ====
section
/-! DEFINITION. The fifteen request frames (44_commands.md R85 to R99), each the frame the encoder makes of its
operands (R36, R60) through the pseudo-instruction `build` (R48; notes/assumptions/8.md). The encoder gives no
command special treatment. -/

namespace Sys2Proof.Machine

/-- `interface_test_alive.req`, opcode 0x30 (R85). -/
def execInterfaceTestAliveReq (addr : Half) (payload : List Byte) (s : State) : Host.Outcome State Fault Refusal :=
  s.buildRequest 0x30#8 addr payload

/-- `protocol_get_version.req`, opcode 0x31 (R86). -/
def execProtocolGetVersionReq (addr : Half) (payload : List Byte) (s : State) : Host.Outcome State Fault Refusal :=
  s.buildRequest 0x31#8 addr payload

/-- `interface_get_name.req`, opcode 0x32 (R87). -/
def execInterfaceGetNameReq (addr : Half) (payload : List Byte) (s : State) : Host.Outcome State Fault Refusal :=
  s.buildRequest 0x32#8 addr payload

/-- `interface_get_version.req`, opcode 0x33 (R88). -/
def execInterfaceGetVersionReq (addr : Half) (payload : List Byte) (s : State) : Host.Outcome State Fault Refusal :=
  s.buildRequest 0x33#8 addr payload

/-- `interface_exit.req`, opcode 0x34 (R89). -/
def execInterfaceExitReq (addr : Half) (payload : List Byte) (s : State) : Host.Outcome State Fault Refusal :=
  s.buildRequest 0x34#8 addr payload

/-- `device_reset.req`, opcode 0x35 (R90). -/
def execDeviceResetReq (addr : Half) (payload : List Byte) (s : State) : Host.Outcome State Fault Refusal :=
  s.buildRequest 0x35#8 addr payload

/-- `device_init_flash.req`, opcode 0x37 (R91). -/
def execDeviceInitFlashReq (addr : Half) (payload : List Byte) (s : State) : Host.Outcome State Fault Refusal :=
  s.buildRequest 0x37#8 addr payload

/-- `device_erase_all.req`, opcode 0x38 (R92). -/
def execDeviceEraseAllReq (addr : Half) (payload : List Byte) (s : State) : Host.Outcome State Fault Refusal :=
  s.buildRequest 0x38#8 addr payload

/-- `device_page_erase.req`, opcode 0x39 (R93). -/
def execDevicePageEraseReq (addr : Half) (payload : List Byte) (s : State) : Host.Outcome State Fault Refusal :=
  s.buildRequest 0x39#8 addr payload

/-- `device_read.req`, opcode 0x3A (R94). -/
def execDeviceReadReq (addr : Half) (payload : List Byte) (s : State) : Host.Outcome State Fault Refusal :=
  s.buildRequest 0x3A#8 addr payload

/-- `device_write.req`, opcode 0x3B (R95). -/
def execDeviceWriteReq (addr : Half) (payload : List Byte) (s : State) : Host.Outcome State Fault Refusal :=
  s.buildRequest 0x3B#8 addr payload

/-- `device_c2ck_low.req`, opcode 0x3C (R96). -/
def execDeviceC2ckLowReq (addr : Half) (payload : List Byte) (s : State) : Host.Outcome State Fault Refusal :=
  s.buildRequest 0x3C#8 addr payload

/-- `device_read_eeprom.req`, opcode 0x3D (R97). -/
def execDeviceReadEepromReq (addr : Half) (payload : List Byte) (s : State) : Host.Outcome State Fault Refusal :=
  s.buildRequest 0x3D#8 addr payload

/-- `device_write_eeprom.req`, opcode 0x3E (R98). -/
def execDeviceWriteEepromReq (addr : Half) (payload : List Byte) (s : State) : Host.Outcome State Fault Refusal :=
  s.buildRequest 0x3E#8 addr payload

/-- `interface_set_mode.req`, opcode 0x3F (R99). -/
def execInterfaceSetModeReq (addr : Half) (payload : List Byte) (s : State) : Host.Outcome State Fault Refusal :=
  s.buildRequest 0x3F#8 addr payload

end Sys2Proof.Machine
end

