-- ==== Sys2Proof/Machine/ResponseFrames.lean ====
section
/-! DEFINITION. The fifteen response frames (44_commands.md R85 to R99), each given to the decoder and judged
(R37, R70) through the pseudo-instruction `parse` (R49; notes/assumptions/9.md). `RX.PARSE` gives no command
special treatment; the payload of `device_init_flash` is interpreted by `RX.PAYLOAD` only (R91). -/

namespace Sys2Proof.Machine

/-- `interface_test_alive.rsp`, opcode 0x30 (R85). -/
def execInterfaceTestAliveRsp (addr : Half) (payload : List Byte) (ack : Byte) (crc : Half) (s : State) :
    Host.Outcome State Fault Refusal :=
  s.parseSequence (responseFrame 0x30#8 addr payload ack crc)

/-- `protocol_get_version.rsp`, opcode 0x31 (R86). -/
def execProtocolGetVersionRsp (addr : Half) (payload : List Byte) (ack : Byte) (crc : Half) (s : State) :
    Host.Outcome State Fault Refusal :=
  s.parseSequence (responseFrame 0x31#8 addr payload ack crc)

/-- `interface_get_name.rsp`, opcode 0x32 (R87). -/
def execInterfaceGetNameRsp (addr : Half) (payload : List Byte) (ack : Byte) (crc : Half) (s : State) :
    Host.Outcome State Fault Refusal :=
  s.parseSequence (responseFrame 0x32#8 addr payload ack crc)

/-- `interface_get_version.rsp`, opcode 0x33 (R88). -/
def execInterfaceGetVersionRsp (addr : Half) (payload : List Byte) (ack : Byte) (crc : Half) (s : State) :
    Host.Outcome State Fault Refusal :=
  s.parseSequence (responseFrame 0x33#8 addr payload ack crc)

/-- `interface_exit.rsp`, opcode 0x34 (R89). -/
def execInterfaceExitRsp (addr : Half) (payload : List Byte) (ack : Byte) (crc : Half) (s : State) :
    Host.Outcome State Fault Refusal :=
  s.parseSequence (responseFrame 0x34#8 addr payload ack crc)

/-- `device_reset.rsp`, opcode 0x35 (R90). -/
def execDeviceResetRsp (addr : Half) (payload : List Byte) (ack : Byte) (crc : Half) (s : State) :
    Host.Outcome State Fault Refusal :=
  s.parseSequence (responseFrame 0x35#8 addr payload ack crc)

/-- `device_init_flash.rsp`, opcode 0x37 (R91). -/
def execDeviceInitFlashRsp (addr : Half) (payload : List Byte) (ack : Byte) (crc : Half) (s : State) :
    Host.Outcome State Fault Refusal :=
  s.parseSequence (responseFrame 0x37#8 addr payload ack crc)

/-- `device_erase_all.rsp`, opcode 0x38 (R92). -/
def execDeviceEraseAllRsp (addr : Half) (payload : List Byte) (ack : Byte) (crc : Half) (s : State) :
    Host.Outcome State Fault Refusal :=
  s.parseSequence (responseFrame 0x38#8 addr payload ack crc)

/-- `device_page_erase.rsp`, opcode 0x39 (R93). -/
def execDevicePageEraseRsp (addr : Half) (payload : List Byte) (ack : Byte) (crc : Half) (s : State) :
    Host.Outcome State Fault Refusal :=
  s.parseSequence (responseFrame 0x39#8 addr payload ack crc)

/-- `device_read.rsp`, opcode 0x3A (R94). -/
def execDeviceReadRsp (addr : Half) (payload : List Byte) (ack : Byte) (crc : Half) (s : State) :
    Host.Outcome State Fault Refusal :=
  s.parseSequence (responseFrame 0x3A#8 addr payload ack crc)

/-- `device_write.rsp`, opcode 0x3B (R95). -/
def execDeviceWriteRsp (addr : Half) (payload : List Byte) (ack : Byte) (crc : Half) (s : State) :
    Host.Outcome State Fault Refusal :=
  s.parseSequence (responseFrame 0x3B#8 addr payload ack crc)

/-- `device_c2ck_low.rsp`, opcode 0x3C (R96). -/
def execDeviceC2ckLowRsp (addr : Half) (payload : List Byte) (ack : Byte) (crc : Half) (s : State) :
    Host.Outcome State Fault Refusal :=
  s.parseSequence (responseFrame 0x3C#8 addr payload ack crc)

/-- `device_read_eeprom.rsp`, opcode 0x3D (R97). -/
def execDeviceReadEepromRsp (addr : Half) (payload : List Byte) (ack : Byte) (crc : Half) (s : State) :
    Host.Outcome State Fault Refusal :=
  s.parseSequence (responseFrame 0x3D#8 addr payload ack crc)

/-- `device_write_eeprom.rsp`, opcode 0x3E (R98). -/
def execDeviceWriteEepromRsp (addr : Half) (payload : List Byte) (ack : Byte) (crc : Half) (s : State) :
    Host.Outcome State Fault Refusal :=
  s.parseSequence (responseFrame 0x3E#8 addr payload ack crc)

/-- `interface_set_mode.rsp`, opcode 0x3F (R99). -/
def execInterfaceSetModeRsp (addr : Half) (payload : List Byte) (ack : Byte) (crc : Half) (s : State) :
    Host.Outcome State Fault Refusal :=
  s.parseSequence (responseFrame 0x3F#8 addr payload ack crc)

end Sys2Proof.Machine
end

