-- ==== Sys2Proof/Machine/Dispatch.lean ====
section
/-! DEFINITION. The meaning of every instruction, one arm per constructor of Instr. -/

namespace Sys2Proof.Machine

/-- The effect of one instruction. -/
def exec (i : Instr) (s : State) : Host.Outcome State Fault Refusal :=
  match i with
  | .crcInit => Sys2Proof.Machine.execCrcInit s
  | .crcByte b => Sys2Proof.Machine.execCrcByte b s
  | .txNew cmd addr => Sys2Proof.Machine.execTxNew cmd addr s
  | .txPush b => Sys2Proof.Machine.execTxPush b s
  | .txBuild => Sys2Proof.Machine.execTxBuild s
  | .lineTake => Sys2Proof.Machine.execLineTake s
  | .rxClr => Sys2Proof.Machine.execRxClr s
  | .rxPush b => Sys2Proof.Machine.execRxPush b s
  | .rxParse => Sys2Proof.Machine.execRxParse s
  | .rxPayload => Sys2Proof.Machine.execRxPayload s
  | .rd reg => Sys2Proof.Machine.execRd reg s
  | .rdPl k => Sys2Proof.Machine.execRdPl k s
  | .errClr => Sys2Proof.Machine.execErrClr s
  | .interfaceTestAliveReq addr payload => Sys2Proof.Machine.execInterfaceTestAliveReq addr payload s
  | .protocolGetVersionReq addr payload => Sys2Proof.Machine.execProtocolGetVersionReq addr payload s
  | .interfaceGetNameReq addr payload => Sys2Proof.Machine.execInterfaceGetNameReq addr payload s
  | .interfaceGetVersionReq addr payload => Sys2Proof.Machine.execInterfaceGetVersionReq addr payload s
  | .interfaceExitReq addr payload => Sys2Proof.Machine.execInterfaceExitReq addr payload s
  | .deviceResetReq addr payload => Sys2Proof.Machine.execDeviceResetReq addr payload s
  | .deviceInitFlashReq addr payload => Sys2Proof.Machine.execDeviceInitFlashReq addr payload s
  | .deviceEraseAllReq addr payload => Sys2Proof.Machine.execDeviceEraseAllReq addr payload s
  | .devicePageEraseReq addr payload => Sys2Proof.Machine.execDevicePageEraseReq addr payload s
  | .deviceReadReq addr payload => Sys2Proof.Machine.execDeviceReadReq addr payload s
  | .deviceWriteReq addr payload => Sys2Proof.Machine.execDeviceWriteReq addr payload s
  | .deviceC2ckLowReq addr payload => Sys2Proof.Machine.execDeviceC2ckLowReq addr payload s
  | .deviceReadEepromReq addr payload => Sys2Proof.Machine.execDeviceReadEepromReq addr payload s
  | .deviceWriteEepromReq addr payload => Sys2Proof.Machine.execDeviceWriteEepromReq addr payload s
  | .interfaceSetModeReq addr payload => Sys2Proof.Machine.execInterfaceSetModeReq addr payload s
  | .interfaceTestAliveRsp addr payload ack crc => Sys2Proof.Machine.execInterfaceTestAliveRsp addr payload ack crc s
  | .protocolGetVersionRsp addr payload ack crc => Sys2Proof.Machine.execProtocolGetVersionRsp addr payload ack crc s
  | .interfaceGetNameRsp addr payload ack crc => Sys2Proof.Machine.execInterfaceGetNameRsp addr payload ack crc s
  | .interfaceGetVersionRsp addr payload ack crc => Sys2Proof.Machine.execInterfaceGetVersionRsp addr payload ack crc s
  | .interfaceExitRsp addr payload ack crc => Sys2Proof.Machine.execInterfaceExitRsp addr payload ack crc s
  | .deviceResetRsp addr payload ack crc => Sys2Proof.Machine.execDeviceResetRsp addr payload ack crc s
  | .deviceInitFlashRsp addr payload ack crc => Sys2Proof.Machine.execDeviceInitFlashRsp addr payload ack crc s
  | .deviceEraseAllRsp addr payload ack crc => Sys2Proof.Machine.execDeviceEraseAllRsp addr payload ack crc s
  | .devicePageEraseRsp addr payload ack crc => Sys2Proof.Machine.execDevicePageEraseRsp addr payload ack crc s
  | .deviceReadRsp addr payload ack crc => Sys2Proof.Machine.execDeviceReadRsp addr payload ack crc s
  | .deviceWriteRsp addr payload ack crc => Sys2Proof.Machine.execDeviceWriteRsp addr payload ack crc s
  | .deviceC2ckLowRsp addr payload ack crc => Sys2Proof.Machine.execDeviceC2ckLowRsp addr payload ack crc s
  | .deviceReadEepromRsp addr payload ack crc => Sys2Proof.Machine.execDeviceReadEepromRsp addr payload ack crc s
  | .deviceWriteEepromRsp addr payload ack crc => Sys2Proof.Machine.execDeviceWriteEepromRsp addr payload ack crc s
  | .interfaceSetModeRsp addr payload ack crc => Sys2Proof.Machine.execInterfaceSetModeRsp addr payload ack crc s

end Sys2Proof.Machine
end

