-- ==== Sys2Proof/Machine/Pseudo.lean ====
section
/-! DEFINITION. The assembler level: the call `build` with its defaults and its expansion into operations (R47 (a),
R48, D4), and what an issue does that spells no row of the table. -/

namespace Sys2Proof.Machine

/-- Instructions in the form in which agents issue them. -/
def issues (prog : List Instr) : List Issue :=
  prog.map (fun i => (encode i).issue)

/-- The operations `build(cmd, address=addr, payload)` expands to (R48): stage, build, and as many `LINE.TAKE` as the
frame has bytes, 7 and one for each payload byte (R36). -/
def buildExpansion (cmd : Byte) (addr : Half) (payload : List Byte) : List Instr :=
  .txNew cmd addr :: payload.map .txPush ++ .txBuild :: List.replicate (7 + payload.length) .lineTake

/-- The call `build(cmd[, address][, payload])`: an omitted operand takes its default, and the operations of the
expansion are issued next (R47, R48). The call does nothing to the block itself (notes/assumptions/17.md). -/
def State.expandBuild (s : State) (cmd : Byte) (addr : Option Half) (payload : Option (List Byte)) : State :=
  let expansion := buildExpansion cmd (addr.getD Config.defaultAddress) (payload.getD Config.defaultPayload)
  { s with port := issues expansion ++ s.port }

/-- What an issue does that spells no row of the table: an illegal word raises `U_ILLEGAL_OP` (R46), a `build`
with an unknown opcode runs to its `E_OPCODE` (R48), received bytes in no row's layout are judged all the same
(R44, R49), a call of `build` is expanded (R48), and the reset input resets (R113). -/
def State.runUndecoded (s : State) (q : Issue) : Host.Outcome State Fault Refusal :=
  match q with
  | .word _ => .next (s.raise (.usage .illegalOp))
  | .build cmd addr payload => s.buildRequest cmd addr payload
  | .buildCall cmd addr payload => .next (s.expandBuild cmd addr payload)
  | .parse bytes => s.parseSequence bytes
  | .rst => .next s.applyReset

end Sys2Proof.Machine
end

