-- ==== Sys2Proof/Machine/Step.lean ====
section
/-! DEFINITION. One step of the machine: the next issue of an agent is run to its outcome (R7). -/

namespace Sys2Proof.Machine

/-- One step. With nothing issued the passive block does not change (R7; notes/assumptions/1.md). -/
def step (s : State) : Host.Outcome State Fault Refusal :=
  match s.fetch with
  | none => .next s
  | some (q, s') =>
    match decodeIssue q with
    | .ok i => exec i s'
    | .error _ => s'.runUndecoded q

/-- `s` with the instruction whose table bits are `w` issued next (notes/assumptions/1.md, 11.md). -/
def State.withFetchWord (s : State) (nbits w : Nat) : State :=
  match tableCode nbits w with
  | some c => { s with port := c.issue :: s.port }
  | none => s

end Sys2Proof.Machine
end

