-- ==== Sys2Proof/WellFormed.lean ====
section
/-! DEFINITION. Which instructions the encoding can spell. An operation word spells every operand of its widths
(R45); a frame's length byte counts at most 255 payload bytes (R5 `MAX_PAYLOAD`, R36, R37). Whether a response
frame's ack and CRC are right is not a question of encoding: the decoder judges them (R70). -/

namespace Sys2Proof

/-- The payload bytes of a frame, or none for an operation word. -/
def Instr.framePayload : Instr → Option (List Byte)
  | .crcInit => none
  | .crcByte _ => none
  | .txNew _ _ => none
  | .txPush _ => none
  | .txBuild => none
  | .lineTake => none
  | .rxClr => none
  | .rxPush _ => none
  | .rxParse => none
  | .rxPayload => none
  | .rd _ => none
  | .rdPl _ => none
  | .errClr => none
  | .interfaceTestAliveReq _ p => some p
  | .protocolGetVersionReq _ p => some p
  | .interfaceGetNameReq _ p => some p
  | .interfaceGetVersionReq _ p => some p
  | .interfaceExitReq _ p => some p
  | .deviceResetReq _ p => some p
  | .deviceInitFlashReq _ p => some p
  | .deviceEraseAllReq _ p => some p
  | .devicePageEraseReq _ p => some p
  | .deviceReadReq _ p => some p
  | .deviceWriteReq _ p => some p
  | .deviceC2ckLowReq _ p => some p
  | .deviceReadEepromReq _ p => some p
  | .deviceWriteEepromReq _ p => some p
  | .interfaceSetModeReq _ p => some p
  | .interfaceTestAliveRsp _ p _ _ => some p
  | .protocolGetVersionRsp _ p _ _ => some p
  | .interfaceGetNameRsp _ p _ _ => some p
  | .interfaceGetVersionRsp _ p _ _ => some p
  | .interfaceExitRsp _ p _ _ => some p
  | .deviceResetRsp _ p _ _ => some p
  | .deviceInitFlashRsp _ p _ _ => some p
  | .deviceEraseAllRsp _ p _ _ => some p
  | .devicePageEraseRsp _ p _ _ => some p
  | .deviceReadRsp _ p _ _ => some p
  | .deviceWriteRsp _ p _ _ => some p
  | .deviceC2ckLowRsp _ p _ _ => some p
  | .deviceReadEepromRsp _ p _ _ => some p
  | .deviceWriteEepromRsp _ p _ _ => some p
  | .interfaceSetModeRsp _ p _ _ => some p

/-- The encoding can spell the instruction: a frame's payload fits its 1-byte count (R5, R36, R37). -/
def Instr.wf (i : Instr) : Bool :=
  match i.framePayload with
  | none => true
  | some p => decide (p.length ≤ Config.maxPayload)

end Sys2Proof
end

