-- ==== Sys2Proof/Safety.lean ====
section
/-! DEFINITION. What counts as a safe state and a safe run: the invariant of R24 with the buffers' contents (R8,
R20), and the runs of a host that does not misuse the block (R104). -/

namespace Sys2Proof.Machine

/-- Exactly the indices below `n` hold a value (R8 "holds a value when"). -/
def Memory.holdsBelow (m : Memory) (n : Nat) : Prop :=
  m.map Prod.fst = List.range n

/-- The store holds these bytes from index 0 on, and nothing else. -/
def Memory.holds (m : Memory) (bytes : List Byte) : Prop :=
  ∀ i, m.read i = bytes[i]?

/-- The frame registers show a frame: every field, and the payload byte by byte (R73). -/
structure FrameRegs.Shows (f : FrameRegs) (p : ParsedFrame) : Prop where
  start_eq : f.start = 0x2E#8
  cmd_eq : f.cmd = p.cmd
  addr_eq : f.addr = p.addr
  len_eq : f.len.toNat = p.payload.length
  pl_holds : f.pl.holds p.payload
  ack_eq : f.ack = p.ack
  crc_eq : f.crc = p.crc

/-- What R24 says of the frame registers when `F_VALID` = 1, with R8's condition on `F_PL`. -/
structure FrameRegs.Legal (f : FrameRegs) : Prop where
  /-- `F_START` = 0x2E. -/
  start_eq : f.start = 0x2E#8
  /-- `F_CMD` in `CMDSET`. -/
  cmd_known : inCmdSet f.cmd = true
  /-- `F_ACK` in `ACKSET`. -/
  ack_known : inAckSet f.ack = true
  /-- `F_PL` holds a value at the indices below `F_LEN`. -/
  pl_held : f.pl.holdsBelow f.len.toNat

/-- What R24 says when `P_KIND` = 2. -/
structure IdentRegs.Legal (r : IdentRegs) (f : FrameRegs) : Prop where
  /-- `F_CMD` = 0x37. -/
  cmd_eq : f.cmd = 0x37#8
  /-- `F_LEN` = 4. -/
  len_eq : f.len = 4#8
  /-- `P_MODE` = `F_PL[3]`. -/
  mode_eq : f.pl.read 3 = some (r.mode.setWidth 8)

/-- The invariant of R24, with the buffers holding exactly the bytes their counts say (R8, R20). -/
structure State.Inv (s : State) : Prop where
  /-- 0 <= `TX_CNT` <= 256. -/
  txCnt_le : s.txCnt.toNat ≤ 256
  /-- `TXBUF` holds a value at the indices below min(`TX_CNT`, 255). -/
  txBuf_held : s.txBuf.holdsBelow (min s.txCnt.toNat 255)
  /-- 0 <= `RX_CNT` <= 264. -/
  rxCnt_le : s.rxCnt.toNat ≤ 264
  /-- `RXBUF` holds a value at the indices below min(`RX_CNT`, 263). -/
  rxBuf_held : s.rxBuf.holdsBelow (min s.rxCnt.toNat 263)
  /-- 0 <= len(`TXQ`) <= 262. -/
  txQ_length : s.txQ.length ≤ 262
  /-- A `TXQ` that is not empty is a suffix of a built frame. -/
  txQ_built : s.txQ ≠ [] →
    ∃ cmd addr payload frame, buildBytes cmd addr payload = .ok frame ∧ s.txQ <:+ frame
  /-- `ERR[5:4]` in 0, 1, 2. -/
  err_class : (s.err.extractLsb' 4 2).toNat ≤ 2
  /-- The frame registers of a held frame. -/
  frame_legal : ∀ f, s.frame = some f → f.Legal
  /-- `P_KIND` is not 0 only if `F_VALID` = 1. -/
  kind_valid : s.interp ≠ .none → s.frame.isSome = true
  /-- The payload registers of an interpreted identification payload. -/
  ident_legal : ∀ r f, s.interp = .ident r → s.frame = some f → r.Legal f

/-- The last outcome is a UsageFault: the host misused the block (R104). -/
def State.misused (s : State) : Prop :=
  ∃ c, s.result = .raised (.usage c)

/-- Bit `i` of a byte sequence in the order its bits enter the CRC: bytes in order, bit 7 of a byte first (R26). -/
def wireBit (s : List Byte) (i : Nat) : Bool :=
  (byteAt s (i / 8)).getLsbD (7 - i % 8)

/-- A byte sequence with the set bits of `e` changed. -/
def corrupt (s e : List Byte) : List Byte :=
  List.zipWith (fun x y => x ^^^ y) s e

/-- The block is quiescent: no byte of a request frame is left unsent (R115). -/
def State.quiescent (s : State) : Prop :=
  s.txQ = []

end Sys2Proof.Machine

namespace Sys2Proof

/-- The operations that stage and build a request: `TX.NEW`, `TX.PUSH`, `TX.BUILD` (R64). -/
def Instr.stages (i : Instr) : Bool :=
  match i with
  | .txNew _ _ => true
  | .txPush _ => true
  | .txBuild => true
  | _ => false

/-- The operations of the `CRC.*`, `RX.*`, `RD*` and `ERR.CLR` kinds, which R64 lets a host interleave freely with
the encoder's. -/
def Instr.interleaves (i : Instr) : Bool :=
  match i with
  | .crcInit => true
  | .crcByte _ => true
  | .rxClr => true
  | .rxPush _ => true
  | .rxParse => true
  | .rxPayload => true
  | .rd _ => true
  | .rdPl _ => true
  | .errClr => true
  | _ => false

end Sys2Proof
end

