-- ==== Sys2Proof/Certificates/Slice0/Obligations.lean ====
section
/-! DEFINITION. The statements for the provers. Each docstring names the rule of spec/ it formalises. In every
statement `{ s with … }` is the whole frame: every register, buffer and queue not named keeps its value. The
fields `result` and `port` are the model's own (notes/assumptions/1.md and 2.md): `result` is the outcome the
spec says the operation ends in. -/

open Sys2Proof Sys2Proof.Machine

namespace Sys2Proof.Claims

/-- The `ERR` values of the Encoding errors, copied from the table of R101. -/
def errOfEncoding (c : EncodingCause) : BitVec 6 :=
  match c with
  | .opcode => 0x11#6
  | .oversize => 0x12#6

/-- The `ERR` values of the Decoding errors, copied from the table of R101. -/
def errOfDecoding (c : DecodingCause) : BitVec 6 :=
  match c with
  | .empty => 0x21#6
  | .length => 0x22#6
  | .opcode => 0x23#6
  | .ack => 0x24#6
  | .marker => 0x25#6
  | .crc => 0x26#6
  | .payload => 0x27#6

/-- The fifteen request rows with their opcodes (R41). -/
def requestRows (addr : Half) (payload : List Byte) : List (Byte × Instr) :=
  [(0x30#8, .interfaceTestAliveReq addr payload),
   (0x31#8, .protocolGetVersionReq addr payload),
   (0x32#8, .interfaceGetNameReq addr payload),
   (0x33#8, .interfaceGetVersionReq addr payload),
   (0x34#8, .interfaceExitReq addr payload),
   (0x35#8, .deviceResetReq addr payload),
   (0x37#8, .deviceInitFlashReq addr payload),
   (0x38#8, .deviceEraseAllReq addr payload),
   (0x39#8, .devicePageEraseReq addr payload),
   (0x3A#8, .deviceReadReq addr payload),
   (0x3B#8, .deviceWriteReq addr payload),
   (0x3C#8, .deviceC2ckLowReq addr payload),
   (0x3D#8, .deviceReadEepromReq addr payload),
   (0x3E#8, .deviceWriteEepromReq addr payload),
   (0x3F#8, .interfaceSetModeReq addr payload)]

/-- The fifteen response rows with their opcodes (R41). -/
def responseRows (addr : Half) (payload : List Byte) (ack : Byte) (crc : Half) : List (Byte × Instr) :=
  [(0x30#8, .interfaceTestAliveRsp addr payload ack crc),
   (0x31#8, .protocolGetVersionRsp addr payload ack crc),
   (0x32#8, .interfaceGetNameRsp addr payload ack crc),
   (0x33#8, .interfaceGetVersionRsp addr payload ack crc),
   (0x34#8, .interfaceExitRsp addr payload ack crc),
   (0x35#8, .deviceResetRsp addr payload ack crc),
   (0x37#8, .deviceInitFlashRsp addr payload ack crc),
   (0x38#8, .deviceEraseAllRsp addr payload ack crc),
   (0x39#8, .devicePageEraseRsp addr payload ack crc),
   (0x3A#8, .deviceReadRsp addr payload ack crc),
   (0x3B#8, .deviceWriteRsp addr payload ack crc),
   (0x3C#8, .deviceC2ckLowRsp addr payload ack crc),
   (0x3D#8, .deviceReadEepromRsp addr payload ack crc),
   (0x3E#8, .deviceWriteEepromRsp addr payload ack crc),
   (0x3F#8, .interfaceSetModeRsp addr payload ack crc)]

/-- The bytes of a request frame before its CRC, written out from R36. -/
def requestBytes (cmd : Byte) (addr : Half) (payload : List Byte) : List Byte :=
  [0x2F#8, cmd, addr.extractLsb' 8 8, addr.extractLsb' 0 8, BitVec.ofNat 8 payload.length] ++ payload

/-- The bytes of a response frame before its CRC, written out from R37. -/
def responseBytes (cmd : Byte) (addr : Half) (payload : List Byte) (ack : Byte) : List Byte :=
  [0x2E#8, cmd, addr.extractLsb' 8 8, addr.extractLsb' 0 8, BitVec.ofNat 8 payload.length] ++ payload ++ [ack]

/-- A body followed by a CRC field, high byte first (R26). -/
def closed (body : List Byte) (c : Half) : List Byte :=
  body ++ [c.extractLsb' 8 8, c.extractLsb' 0 8]

/-- Every operation word with this `OP` selects the operation, whatever bits 27:24 and the fields the operation does
not use hold (R45). -/
def Selects (op : BitVec 4) (operation : Byte → Half → Instr) : Prop :=
  ∀ (ignored : BitVec 4) (a : Byte) (b : Half), decodeWord (op ++ ignored ++ a ++ b) = .ok (operation a b)

/-- The block's own state is the table of R23; the model's `result` and `port` are left out. -/
def AtReset (t : State) : Prop :=
  t.crc = 0x0000#16 ∧ t.txCmd = 0x00#8 ∧ t.txAddr = 0x0000#16 ∧ t.txCnt = 0#9 ∧ (∀ i, t.txBuf.read i = none) ∧
  t.txQ = [] ∧ t.rxCnt = 0#9 ∧ (∀ i, t.rxBuf.read i = none) ∧ t.frame = none ∧ t.interp = .none ∧
  t.err = 0x00#6 ∧ t.statusWord = 0x00#8

end Sys2Proof.Claims

open Sys2Proof.Claims

/-! ## The CRC generator (40_crc.md) -/

/-- R53: `crc_step` is the eight-pass loop, the bit-serial form and the table-driven form. -/
def Obligations.CrcStepHasThreeEqualForms : Prop :=
  ∀ (c : Half) (b : Byte),
    crcStep c b =
      (fun x : Half => if x.getLsbD 15 then (x <<< 1) ^^^ 0x1021#16 else x <<< 1)^[8]
        (c ^^^ (b.setWidth 16 <<< 8)) ∧
    crcStep c b =
      [7, 6, 5, 4, 3, 2, 1, 0].foldl
        (fun (x : Half) k => if x.getLsbD 15 ^^ b.getLsbD k then (x <<< 1) ^^^ 0x1021#16 else x <<< 1) c ∧
    crcStep c b = (c <<< 8) ^^^ crcStep 0x0000#16 (c.extractLsb' 8 8 ^^^ b)

/-- R54: `CRC.INIT` sets `CRC` to 0x0000 and touches nothing else; always `ok`. -/
def Obligations.CrcInitClearsOnlyTheAccumulator : Prop :=
  Selects 0x1#4 (fun _ _ => .crcInit) ∧
  ∀ s : State, exec .crcInit s = .next { s with crc := 0x0000#16, result := .ok }

/-- R55: `CRC.BYTE b` sets `CRC` to `crc_step(CRC, b)` and touches nothing else; always `ok`. The step is written
out as the bit-serial form of R53. -/
def Obligations.CrcByteFeedsOneByte : Prop :=
  ∀ (b : Byte) (s : State), exec (.crcByte b) s = .next { s with
    crc := [7, 6, 5, 4, 3, 2, 1, 0].foldl
      (fun (x : Half) k => if x.getLsbD 15 ^^ b.getLsbD k then (x <<< 1) ^^^ 0x1021#16 else x <<< 1) s.crc
    result := .ok }

/-- R55's derived sentence, R9: after `CRC.INIT` and one `CRC.BYTE` per byte, issued one after the other, `CRC` is
`crc16` of the bytes, and nothing else has changed. -/
def Obligations.StreamedBytesGiveCrc16 : Prop :=
  ∀ (s : State) (bytes : List Byte) (rest : List Issue),
    s.port = issues (.crcInit :: bytes.map .crcByte) ++ rest →
    Sys2Proof.core.run (bytes.length + 1) s = .next { s with crc := crc16 bytes, result := .ok, port := rest }

/-- R57 (a): `crc_step` is linear. -/
def Obligations.CrcStepIsLinear : Prop :=
  ∀ (c1 c2 : Half) (b1 b2 : Byte), crcStep (c1 ^^^ c2) (b1 ^^^ b2) = crcStep c1 b1 ^^^ crcStep c2 b2

/-- R57 (b), (c): a leading zero byte is invisible, and a sequence closed with its CRC has CRC 0x0000. -/
def Obligations.CrcResidueIsZero : Prop :=
  ∀ s : List Byte, crc16 (0x00#8 :: s) = crc16 s ∧ crc16 (closed s (crc16 s)) = 0x0000#16

/-- R57 (d): every change confined to 16 consecutive bits of a sequence closed with its CRC, a single-bit change
among them, leaves a residue that is not 0x0000. -/
def Obligations.BurstsUpToSixteenBitsAreDetected : Prop :=
  ∀ (s e : List Byte) (k : Nat), e.length = s.length + 2 →
    (∃ i, i < 8 * e.length ∧ wireBit e i = true) →
    (∀ i, i < 8 * e.length → wireBit e i = true → k ≤ i ∧ i < k + 16) →
    crc16 (corrupt (closed s (crc16 s)) e) ≠ 0x0000#16

/-! ## The code tables (30_encoding.md) -/

/-- R40 and R42: the known opcodes and the known ack codes are exactly the listed ones. -/
def Obligations.KnownCodesAreTheListedOnes : Prop :=
  (∀ b : Byte, inCmdSet b = true ↔ b.extractLsb' 4 4 = 0x3#4 ∧ b ≠ 0x36#8) ∧
  (∀ b : Byte, inCmdSet b = true ↔ b ∈ [0x30#8, 0x31#8, 0x32#8, 0x33#8, 0x34#8, 0x35#8, 0x37#8, 0x38#8, 0x39#8,
    0x3A#8, 0x3B#8, 0x3C#8, 0x3D#8, 0x3E#8, 0x3F#8]) ∧
  (∀ b : Byte, inAckSet b = true ↔ b ∈ [0x00#8, 0x02#8, 0x03#8, 0x04#8, 0x08#8, 0x09#8, 0x0F#8])

/-! ## The frame encoder (41_encoder.md) -/

/-- R60: `build_bytes`, both errors and the frame. -/
def Obligations.BuildBytesMakesTheRequestFrame : Prop :=
  ∀ (cmd : Byte) (addr : Half) (payload : List Byte),
    buildBytes cmd addr payload =
      if inCmdSet cmd = false then .error .opcode
      else if 255 < payload.length then .error .oversize
      else .ok (closed (requestBytes cmd addr payload) (crc16 (requestBytes cmd addr payload)))

/-- R61: `TX.NEW` stages command and address and sets `TX_CNT` to 0; no index of `TXBUF` holds a value then. Nothing
else changes; always `ok`. -/
def Obligations.TxNewStagesAnEmptyPayload : Prop :=
  Selects 0x3#4 .txNew ∧
  ∀ (cmd : Byte) (addr : Half) (s : State), ∃ t, exec (.txNew cmd addr) s = .next t ∧
    t = { s with txCmd := cmd, txAddr := addr, txCnt := 0#9, txBuf := t.txBuf, result := .ok } ∧
    ∀ i, t.txBuf.read i = none

/-- R62: `TX.PUSH` stores at index `TX_CNT` and counts up; the 256th byte sets the overflow mark and is discarded,
and so is every later one. -/
def Obligations.TxPushAppendsOrMarksOverflow : Prop :=
  Selects 0x4#4 (fun a _ => .txPush a) ∧
  ∀ (b : Byte) (s : State),
    (s.txCnt.toNat < 255 → ∃ t, exec (.txPush b) s = .next t ∧
      t = { s with txBuf := t.txBuf, txCnt := s.txCnt + 1#9, result := .ok } ∧
      t.txBuf.read s.txCnt.toNat = some b ∧
      ∀ i, i ≠ s.txCnt.toNat → t.txBuf.read i = s.txBuf.read i) ∧
    (s.txCnt.toNat = 255 → exec (.txPush b) s = .next { s with txCnt := 256#9, result := .ok }) ∧
    (s.txCnt.toNat = 256 → exec (.txPush b) s = .next { s with result := .ok })

/-- R63: `TX.BUILD`, its two errors, its hold and its frame, in the order of the tests. -/
def Obligations.TxBuildFollowsItsRule : Prop :=
  ∀ s : State,
    (inCmdSet s.txCmd = false →
      exec .txBuild s = .next { s with err := 0x11#6, result := .raised (.encoding .opcode) }) ∧
    (inCmdSet s.txCmd = true → s.txCnt = 256#9 →
      exec .txBuild s = .next { s with err := 0x12#6, result := .raised (.encoding .oversize) }) ∧
    (inCmdSet s.txCmd = true → s.txCnt.toNat ≤ 255 → s.txQ ≠ [] →
      exec .txBuild s = .next { s with result := .held .busy }) ∧
    (∀ payload : List Byte, inCmdSet s.txCmd = true → s.txCnt.toNat ≤ 255 → s.txQ = [] →
      payload.length = s.txCnt.toNat → (∀ i, i < payload.length → s.txBuf.read i = payload[i]?) →
      exec .txBuild s = .next { s with
        txQ := closed (requestBytes s.txCmd s.txAddr payload) (crc16 (requestBytes s.txCmd s.txAddr payload))
        result := .ok })

/-- R66: what `TX.BUILD` loads depends only on `TX_CMD`, `TX_ADDR`, `TX_CNT` and `TXBUF` below `TX_CNT`: two
states that agree on these, both with an empty queue, load the same bytes with the same outcome, whatever else
they hold. -/
def Obligations.BuiltFrameDependsOnlyOnStaging : Prop :=
  ∀ s1 s2 t1 : State, s1.txQ = [] → s2.txQ = [] →
    s1.txCmd = s2.txCmd → s1.txAddr = s2.txAddr → s1.txCnt = s2.txCnt →
    (∀ i, i < s1.txCnt.toNat → s1.txBuf.read i = s2.txBuf.read i) →
    exec .txBuild s1 = .next t1 →
    ∃ t2, exec .txBuild s2 = .next t2 ∧ t2.txQ = t1.txQ ∧ t2.result = t1.result

/-- R65: `LINE.TAKE` holds on an empty queue and otherwise removes and returns its head. -/
def Obligations.LineTakeRemovesTheHead : Prop :=
  ∀ s : State,
    (s.txQ = [] → exec .lineTake s = .next { s with result := .held .empty }) ∧
    (∀ b rest, s.txQ = b :: rest → exec .lineTake s = .next { s with txQ := rest, result := .byte b })

/-- R65, R31 (b): the `LINE.TAKE`s after a build return the bytes of the frame in frame order, none lost, doubled or
reordered, and the one after the last holds `Empty` (that a hold is an outcome returned, after which the run goes on,
is the choice R107 leaves, notes/assumptions/4.md). -/
def Obligations.LineTakesReturnTheFrameInOrder : Prop :=
  ∀ (s : State) (n : Nat) (rest : List Issue), n ≤ s.txQ.length →
    s.port = issues (List.replicate (n + 1) .lineTake) ++ rest →
    ∃ t, Sys2Proof.core.run (n + 1) s = .next t ∧ t.txQ = s.txQ.drop (n + 1) ∧ t.port = rest ∧
      t.result = (match s.txQ[n]? with
        | some b => .byte b
        | none => .held .empty)

/-- R64: the operations agree with `build_bytes`, with operations of the `CRC.*`, `RX.*`, `RD*` and `ERR.CLR` kinds
interleaved in any way. `Inv` rules out states no run reaches, in which a read could fault. That an interleaved `RD`,
`RD.PL` or `RX.PAYLOAD` which ends in a UsageFault lets the run go on is the model's reading, notes/assumptions/3.md. -/
def Obligations.InterleavedBuildAgreesWithBuildBytes : Prop :=
  ∀ (s : State) (prog : List Instr) (cmd : Byte) (addr : Half) (payload : List Byte) (rest : List Issue),
    s.Inv → s.txQ = [] →
    (∀ i ∈ prog, i.stages = true ∨ i.interleaves = true) →
    prog.filter Instr.stages = .txNew cmd addr :: payload.map .txPush →
    s.port = issues (prog ++ [.txBuild]) ++ rest →
    ∃ t, Sys2Proof.core.run (prog.length + 1) s = .next t ∧
      match buildBytes cmd addr payload with
      | .ok frame => t.result = .ok ∧ t.txQ = frame
      | .error c => t.result = .raised (.encoding c) ∧ t.txQ = [] ∧ t.err = errOfEncoding c

/-! ## The request rows (44_commands.md; what such a row does as one instruction is the model's choice,
notes/assumptions/8.md) -/

/-- R48, R60, R85 to R99: each of the fifteen request rows, with an empty queue and a payload its length byte can
count, stages its operands and puts exactly its own frame, CRC computed, into `TXQ`. -/
def Obligations.RequestRowsPutTheirFrameInTheQueue : Prop :=
  ∀ (addr : Half) (payload : List Byte) (s : State), payload.length ≤ 255 → s.txQ = [] →
    ∀ row ∈ requestRows addr payload,
      ∃ t, exec row.2 s = .next t ∧
        t = { s with
          txCmd := row.1, txAddr := addr, txCnt := BitVec.ofNat 9 payload.length, txBuf := t.txBuf
          txQ := closed (requestBytes row.1 addr payload) (crc16 (requestBytes row.1 addr payload))
          result := .ok } ∧
        t.txBuf.holds payload ∧
        encode row.2 = .frame t.txQ

/-- R48, R63, R105: each of the fifteen request rows ends in `hold Busy` while the queue holds bytes, and in
`E_OVERSIZE` with more than 255 payload bytes; the queue is untouched, and the operands stay staged. -/
def Obligations.RequestRowsHoldOrRefuseOversize : Prop :=
  ∀ (addr : Half) (payload : List Byte) (s : State), ∀ row ∈ requestRows addr payload,
    (payload.length ≤ 255 → s.txQ ≠ [] → ∃ t, exec row.2 s = .next t ∧ t.txBuf.holds payload ∧
      t = { s with
        txCmd := row.1, txAddr := addr, txCnt := BitVec.ofNat 9 payload.length, txBuf := t.txBuf
        result := .held .busy }) ∧
    (255 < payload.length → ∃ t, exec row.2 s = .next t ∧ t.txBuf.holds (payload.take 255) ∧
      t = { s with
        txCmd := row.1, txAddr := addr, txCnt := 256#9, txBuf := t.txBuf
        err := 0x12#6, result := .raised (.encoding .oversize) })

/-! ## The frame decoder (42_decoder.md) -/

/-- R71: `RX.CLR` sets `RX_CNT` to 0 and touches no other register; no index of `RXBUF` holds a value then; always
`ok`. -/
def Obligations.RxClrEmptiesTheReceiveBuffer : Prop :=
  Selects 0x7#4 (fun _ _ => .rxClr) ∧
  ∀ s : State, ∃ t, exec .rxClr s = .next t ∧ t = { s with rxCnt := 0#9, rxBuf := t.rxBuf, result := .ok } ∧
    ∀ i, t.rxBuf.read i = none

/-- R72: `RX.PUSH` stores at index `RX_CNT` and counts up; the 264th byte sets the overflow mark and is discarded,
and so is every later one. -/
def Obligations.RxPushAppendsOrMarksOverflow : Prop :=
  Selects 0x8#4 (fun a _ => .rxPush a) ∧
  ∀ (b : Byte) (s : State),
    (s.rxCnt.toNat < 263 → ∃ t, exec (.rxPush b) s = .next t ∧
      t = { s with rxBuf := t.rxBuf, rxCnt := s.rxCnt + 1#9, result := .ok } ∧
      t.rxBuf.read s.rxCnt.toNat = some b ∧
      ∀ i, i ≠ s.rxCnt.toNat → t.rxBuf.read i = s.rxBuf.read i) ∧
    (s.rxCnt.toNat = 263 → exec (.rxPush b) s = .next { s with rxCnt := 264#9, result := .ok }) ∧
    (s.rxCnt.toNat = 264 → exec (.rxPush b) s = .next { s with result := .ok })

/-- R70: `parse_bytes` reports exactly the first failing test (R105), and where none fails it returns the fields the
layout names. -/
def Obligations.ParseReportsTheFirstFailingTest : Prop :=
  ∀ r : List Byte,
    let n := r.length
    let l := (r.getD 4 0x00#8).toNat
    (parseBytes r = .error .empty ↔ n = 0) ∧
    (parseBytes r = .error .length ↔ n ≠ 0 ∧ (n < 5 ∨ n ≠ 8 + l)) ∧
    (parseBytes r = .error .opcode ↔ 5 ≤ n ∧ n = 8 + l ∧ inCmdSet (r.getD 1 0x00#8) = false) ∧
    (parseBytes r = .error .ack ↔ 5 ≤ n ∧ n = 8 + l ∧ inCmdSet (r.getD 1 0x00#8) = true ∧
      inAckSet (r.getD (5 + l) 0x00#8) = false) ∧
    (parseBytes r = .error .marker ↔ 5 ≤ n ∧ n = 8 + l ∧ inCmdSet (r.getD 1 0x00#8) = true ∧
      inAckSet (r.getD (5 + l) 0x00#8) = true ∧ r.getD 0 0x00#8 ≠ 0x2E#8) ∧
    (parseBytes r = .error .crc ↔ 5 ≤ n ∧ n = 8 + l ∧ inCmdSet (r.getD 1 0x00#8) = true ∧
      inAckSet (r.getD (5 + l) 0x00#8) = true ∧ r.getD 0 0x00#8 = 0x2E#8 ∧
      crc16 (r.take (n - 2)) ≠ r.getD (n - 2) 0x00#8 ++ r.getD (n - 1) 0x00#8) ∧
    parseBytes r ≠ .error .payload ∧
    ∀ p, parseBytes r = .ok p ↔ 5 ≤ n ∧ n = 8 + l ∧ inCmdSet (r.getD 1 0x00#8) = true ∧
      inAckSet (r.getD (5 + l) 0x00#8) = true ∧ r.getD 0 0x00#8 = 0x2E#8 ∧
      crc16 (r.take (n - 2)) = r.getD (n - 2) 0x00#8 ++ r.getD (n - 1) 0x00#8 ∧
      p.cmd = r.getD 1 0x00#8 ∧ p.addr = r.getD 2 0x00#8 ++ r.getD 3 0x00#8 ∧
      p.payload.length = l ∧ (∀ i, i < l → p.payload[i]? = r[5 + i]?) ∧
      p.ack = r.getD (5 + l) 0x00#8 ∧ p.crc = crc16 (r.take (n - 2))

/-- R70, R37, R77 (a): `parse_bytes` accepts exactly the well-formed response frames, and returns their fields. -/
def Obligations.ParseAcceptsExactlyTheResponseFrames : Prop :=
  ∀ (r : List Byte) (p : ParsedFrame),
    parseBytes r = .ok p ↔
      inCmdSet p.cmd = true ∧ inAckSet p.ack = true ∧ p.payload.length ≤ 255 ∧
      p.crc = crc16 (responseBytes p.cmd p.addr p.payload p.ack) ∧
      r = closed (responseBytes p.cmd p.addr p.payload p.ack) p.crc

/-- R77 (b), (c): a built request frame splits back by the request layout, its whole CRC is 0x0000, and
`parse_bytes` refuses it with `D_LENGTH`. -/
def Obligations.BuiltRequestSplitsBackAndIsNoResponse : Prop :=
  ∀ (cmd : Byte) (addr : Half) (payload f : List Byte), buildBytes cmd addr payload = .ok f →
    f.length = 7 + payload.length ∧ f.getD 0 0x00#8 = 0x2F#8 ∧ f.getD 1 0x00#8 = cmd ∧
    f.getD 2 0x00#8 ++ f.getD 3 0x00#8 = addr ∧ (f.getD 4 0x00#8).toNat = payload.length ∧
    (f.drop 5).take payload.length = payload ∧ crc16 f = 0x0000#16 ∧
    parseBytes f = .error .length

/-- R78: changing any one bit of a well-formed response frame is refused, with the cause the changed byte decides;
replacing the start marker by any other byte is `D_MARKER`. -/
def Obligations.SingleBitCorruptionIsRefused : Prop :=
  ∀ (cmd : Byte) (addr : Half) (payload : List Byte) (ack : Byte),
    inCmdSet cmd = true → inAckSet ack = true → payload.length ≤ 255 →
    let body := responseBytes cmd addr payload ack
    let f := closed body (crc16 body)
    (∀ (j : Nat) (k : Nat), j < f.length → k < 8 →
      let changed := f.getD j 0x00#8 ^^^ (1#8 <<< k)
      parseBytes (f.set j changed) = .error (
        if j = 0 then .marker
        else if j = 1 then (if inCmdSet changed then .crc else .opcode)
        else if j = 4 then .length
        else if j = 5 + payload.length then (if inAckSet changed then .crc else .ack)
        else .crc)) ∧
    (∀ b : Byte, b ≠ 0x2E#8 → parseBytes (f.set 0 b) = .error .marker)

/-- R73: `RX.PARSE` on an overflowed buffer, on bytes `parse_bytes` refuses and on bytes it accepts. Either way
`P_KIND` becomes 0, and `RXBUF`, `RX_CNT` and `CRC` keep their values. -/
def Obligations.RxParseFollowsItsRule : Prop :=
  ∀ s : State,
    (s.rxCnt = 264#9 → exec .rxParse s = .next { s with
      frame := none, interp := .none, err := 0x22#6, result := .raised (.decoding .length) }) ∧
    (∀ r : List Byte, s.rxCnt.toNat ≤ 263 → r.length = s.rxCnt.toNat →
      (∀ i, i < r.length → s.rxBuf.read i = r[i]?) →
      (∀ c, parseBytes r = .error c → exec .rxParse s = .next { s with
        frame := none, interp := .none, err := errOfDecoding c, result := .raised (.decoding c) }) ∧
      (∀ p, parseBytes r = .ok p → ∃ f, f.Shows p ∧
        exec .rxParse s = .next { s with frame := some f, interp := .none, result := .ok }))

/-- R73's agreement with the function: `RX.CLR`, the bytes pushed one by one, `RX.PARSE` end as `parse_bytes` on the
bytes does, for any number of bytes. -/
def Obligations.ReceivedBytesAgreeWithParseBytes : Prop :=
  ∀ (s : State) (r : List Byte) (rest : List Issue),
    s.port = issues (.rxClr :: r.map .rxPush ++ [.rxParse]) ++ rest →
    ∃ t, Sys2Proof.core.run (r.length + 2) s = .next t ∧ t.interp = .none ∧ t.port = rest ∧ t.crc = s.crc ∧
      t.txQ = s.txQ ∧
      match parseBytes r with
      | .ok p => t.result = .ok ∧ ∃ f, t.frame = some f ∧ f.Shows p
      | .error c => t.result = .raised (.decoding c) ∧ t.frame = none ∧ t.err = errOfDecoding c

/-- R74, R75: `RX.PAYLOAD` with no frame, with a command of no registered shape, with an identification payload
and with a malformed one. -/
def Obligations.RxPayloadFollowsItsRule : Prop :=
  ∀ s : State,
    (s.frame = none → exec .rxPayload s = .next { s with result := .raised (.usage .noValue) }) ∧
    (∀ (f : FrameRegs) (p : List Byte), s.frame = some f → p.length = f.len.toNat →
      (∀ i, i < p.length → f.pl.read i = p[i]?) →
      (f.cmd ≠ 0x37#8 → exec .rxPayload s = .next { s with interp := .raw, result := .ok }) ∧
      (∀ sig0 sig1 boot m : Byte, f.cmd = 0x37#8 → p = [sig0, sig1, boot, m] → m.toNat ≤ 3 →
        exec .rxPayload s = .next { s with
          interp := .ident ⟨sig0, sig1, boot, m.setWidth 2, if m.toNat ≤ 1 then 0#1 else 1#1⟩
          result := .ok }) ∧
      (f.cmd = 0x37#8 → (p.length ≠ 4 ∨ ∃ sig0 sig1 boot m : Byte, p = [sig0, sig1, boot, m] ∧ 3 < m.toNat) →
        exec .rxPayload s = .next { s with
          interp := .none, err := 0x27#6, result := .raised (.decoding .payload) }))

/-! ## The response rows (44_commands.md; what such a row does as one instruction is the model's choice,
notes/assumptions/9.md) -/

/-- R49, R70, R85 to R99: each of the fifteen response rows, with a known ack, the right CRC and a payload its length
byte can count, is accepted: `RXBUF` holds its bytes and the frame registers show its fields. -/
def Obligations.ResponseRowsAreDecoded : Prop :=
  ∀ (addr : Half) (payload : List Byte) (ack : Byte) (crc : Half) (s : State),
    payload.length ≤ 255 → inAckSet ack = true →
    ∀ row ∈ responseRows addr payload ack crc,
      crc = crc16 (responseBytes row.1 addr payload ack) →
      ∃ t f, exec row.2 s = .next t ∧
        t = { s with
          rxCnt := BitVec.ofNat 9 (8 + payload.length), rxBuf := t.rxBuf
          frame := some f, interp := .none, result := .ok } ∧
        t.rxBuf.holds (closed (responseBytes row.1 addr payload ack) crc) ∧
        f.Shows ⟨row.1, addr, payload, ack, crc⟩

/-- R49, R70, R103, R105: each of the fifteen response rows with an unknown ack ends in `D_ACK`, and with a known
ack and a wrong CRC in `D_CRC`; no frame is held then. -/
def Obligations.ResponseRowsAreRefusedByAckOrCrc : Prop :=
  ∀ (addr : Half) (payload : List Byte) (ack : Byte) (crc : Half) (s : State), payload.length ≤ 255 →
    ∀ row ∈ responseRows addr payload ack crc,
      (inAckSet ack = false → ∃ t, exec row.2 s = .next t ∧
        t.rxBuf.holds (closed (responseBytes row.1 addr payload ack) crc) ∧
        t = { s with
          rxCnt := BitVec.ofNat 9 (8 + payload.length), rxBuf := t.rxBuf
          frame := none, interp := .none, err := 0x24#6, result := .raised (.decoding .ack) }) ∧
      (inAckSet ack = true → crc ≠ crc16 (responseBytes row.1 addr payload ack) → ∃ t, exec row.2 s = .next t ∧
        t.rxBuf.holds (closed (responseBytes row.1 addr payload ack) crc) ∧
        t = { s with
          rxCnt := BitVec.ofNat 9 (8 + payload.length), rxBuf := t.rxBuf
          frame := none, interp := .none, err := 0x26#6, result := .raised (.decoding .crc) })

/-! ## Access operations and the status view (43_access.md, 10_state.md) -/

/-- R19, R79: `RD` of each of the nineteen registers, each absent value, and each number that names none. -/
def Obligations.RdReadsTheRegisterMap : Prop :=
  ∀ s : State,
    (∀ nv ∈ ([(0x00#8, s.crc), (0x01#8, s.statusWord.setWidth 16), (0x02#8, s.err.setWidth 16),
        (0x03#8, s.txCmd.setWidth 16), (0x04#8, s.txAddr), (0x05#8, s.txCnt.setWidth 16),
        (0x06#8, (BitVec.ofNat 9 s.txQ.length).setWidth 16), (0x07#8, s.rxCnt.setWidth 16)] : List (Byte × Half)),
      exec (.rd nv.1) s = .next { s with result := .value nv.2 }) ∧
    (∀ f, s.frame = some f →
      ∀ nv ∈ ([(0x08#8, f.start.setWidth 16), (0x09#8, f.cmd.setWidth 16), (0x0A#8, f.addr),
          (0x0B#8, f.len.setWidth 16), (0x0C#8, f.ack.setWidth 16), (0x0D#8, f.crc)] : List (Byte × Half)),
        exec (.rd nv.1) s = .next { s with result := .value nv.2 }) ∧
    (∀ r, s.interp = .ident r →
      ∀ nv ∈ ([(0x0E#8, r.sig0.setWidth 16), (0x0F#8, r.sig1.setWidth 16), (0x10#8, r.boot.setWidth 16),
          (0x11#8, r.mode.setWidth 16), (0x12#8, r.family.setWidth 16)] : List (Byte × Half)),
        exec (.rd nv.1) s = .next { s with result := .value nv.2 }) ∧
    (s.frame = none → ∀ n ∈ [0x08#8, 0x09#8, 0x0A#8, 0x0B#8, 0x0C#8, 0x0D#8],
      exec (.rd n) s = .next { s with result := .raised (.usage .noValue) }) ∧
    ((∀ r, s.interp ≠ .ident r) → ∀ n ∈ [0x0E#8, 0x0F#8, 0x10#8, 0x11#8, 0x12#8],
      exec (.rd n) s = .next { s with result := .raised (.usage .noValue) }) ∧
    (∀ n : Byte, 0x12 < n.toNat → exec (.rd n) s = .next { s with result := .raised (.usage .badReg) })

/-- R80: `RD.PL` with no frame, with an index not below `F_LEN`, and of a payload byte. -/
def Obligations.RdPlReadsThePayload : Prop :=
  ∀ (i : Byte) (s : State),
    (s.frame = none → exec (.rdPl i) s = .next { s with result := .raised (.usage .noValue) }) ∧
    (∀ f, s.frame = some f →
      (f.len.toNat ≤ i.toNat → exec (.rdPl i) s = .next { s with result := .raised (.usage .badIndex) }) ∧
      (∀ b, i.toNat < f.len.toNat → f.pl.read i.toNat = some b →
        exec (.rdPl i) s = .next { s with result := .value (b.setWidth 16) }))

/-- R81: `ERR.CLR` sets `ERR` to 0x00 and touches nothing else; always `ok`. -/
def Obligations.ErrClrClearsOnlyTheRecord : Prop :=
  Selects 0xD#4 (fun _ _ => .errClr) ∧
  ∀ s : State, exec .errClr s = .next { s with err := 0x00#6, result := .ok }

/-- R18: `STATUS` bit by bit. -/
def Obligations.StatusShowsTheState : Prop :=
  ∀ s : State,
    (s.statusWord.getLsbD 0 = true ↔ ∃ f, s.frame = some f) ∧
    (s.statusWord.getLsbD 1 = true ↔ ∃ f, s.frame = some f ∧ f.ack ≠ 0x00#8) ∧
    (s.statusWord.getLsbD 2 = true ↔ s.txCnt = 256#9) ∧
    (s.statusWord.getLsbD 3 = true ↔ s.rxCnt = 264#9) ∧
    (s.statusWord.getLsbD 4 = true ↔ s.txQ ≠ []) ∧
    (s.statusWord.extractLsb' 5 2 = (match s.interp with
      | .none => 0#2
      | .raw => 1#2
      | .ident _ => 2#2)) ∧
    s.statusWord.getLsbD 7 = false

/-! ## The machine -/

/-- R7: the step at a state whose next issue spells an instruction is that instruction at the state without the
issue; with nothing issued the passive block does not change. How operations are presented (`port`) is the model's,
notes/assumptions/1.md. -/
def Obligations.StepRunsTheDecodedInstruction : Prop :=
  ∀ (s : State) (q : Issue) (rest : List Issue) (i : Instr),
    (s.port = q :: rest → decodeIssue q = .ok i → step s = exec i { s with port := rest }) ∧
    (s.port = [] → step s = .next s)

/-- R45, R46: every operation word, whatever its ignored bits and unused fields hold, selects the operation of its
`OP` field with its operands, or none for `OP` 0x0, 0xE, 0xF. -/
def Obligations.WordsDecodeByTheirOperationField : Prop :=
  ∀ (x : BitVec 4) (a : Byte) (b : Half),
    decodeWord (0x0#4 ++ x ++ a ++ b) = .error (.illegalOp 0x0#4) ∧
    decodeWord (0x1#4 ++ x ++ a ++ b) = .ok .crcInit ∧
    decodeWord (0x2#4 ++ x ++ a ++ b) = .ok (.crcByte a) ∧
    decodeWord (0x3#4 ++ x ++ a ++ b) = .ok (.txNew a b) ∧
    decodeWord (0x4#4 ++ x ++ a ++ b) = .ok (.txPush a) ∧
    decodeWord (0x5#4 ++ x ++ a ++ b) = .ok .txBuild ∧
    decodeWord (0x6#4 ++ x ++ a ++ b) = .ok .lineTake ∧
    decodeWord (0x7#4 ++ x ++ a ++ b) = .ok .rxClr ∧
    decodeWord (0x8#4 ++ x ++ a ++ b) = .ok (.rxPush a) ∧
    decodeWord (0x9#4 ++ x ++ a ++ b) = .ok .rxParse ∧
    decodeWord (0xA#4 ++ x ++ a ++ b) = .ok .rxPayload ∧
    decodeWord (0xB#4 ++ x ++ a ++ b) = .ok (.rd a) ∧
    decodeWord (0xC#4 ++ x ++ a ++ b) = .ok (.rdPl a) ∧
    decodeWord (0xD#4 ++ x ++ a ++ b) = .ok .errClr ∧
    decodeWord (0xE#4 ++ x ++ a ++ b) = .error (.illegalOp 0xE#4) ∧
    decodeWord (0xF#4 ++ x ++ a ++ b) = .error (.illegalOp 0xF#4)

/-- R46: every word selects an operation or has `OP` 0x0, 0xE or 0xF, and then raises `U_ILLEGAL_OP` and changes no
state (that this is a next state and
not a refusal of the host's is the model's reading, notes/assumptions/3.md). -/
def Obligations.IllegalWordsChangeNoState : Prop :=
  (∀ w : OpWord, (∃ i, decodeWord w = .ok i) ↔ w.extractLsb' 28 4 ∉ [0x0#4, 0xE#4, 0xF#4]) ∧
  ∀ (s : State) (w : OpWord) (rest : List Issue), s.port = .word w :: rest →
    w.extractLsb' 28 4 ∈ [0x0#4, 0xE#4, 0xF#4] →
    step s = .next { s with port := rest, result := .raised (.usage .illegalOp) }

/-- R36, R37, R45: decoding the code of a well-formed instruction gives it back, read as a code and as the issue an
agent gives. -/
def Obligations.DecodeUndoesEncode : Prop :=
  ∀ i : Instr, i.wf = true → decode (encode i) = .ok i ∧ decodeIssue (encode i).issue = .ok i

/-- Words and frames written out from the spec's encodings (95_test_vectors.md) decode to what they stand for. -/
def Obligations.WrittenOutCodesDecode : Prop :=
  decode (.word 0x303AAABB#32) = .ok (.txNew 0x3A#8 0xAABB#16) ∧
  decode (.word 0x20FFFFFF#32) = .ok (.crcByte 0xFF#8) ∧
  decode (.word 0xB0120000#32) = .ok (.rd 0x12#8) ∧
  decode (.frame [0x2F#8, 0x3A#8, 0xAA#8, 0xBB#8, 0x01#8, 0x0F#8, 0xF4#8, 0x46#8]) =
    .ok (.deviceReadReq 0xAABB#16 [0x0F#8]) ∧
  decode (.frame [0x2E#8, 0x34#8, 0x00#8, 0x00#8, 0x01#8, 0x00#8, 0x00#8, 0x42#8, 0x63#8]) =
    .ok (.interfaceExitRsp 0x0000#16 [0x00#8] 0x00#8 0x4263#16)

/-- R23: every piece of the block's state right after reset (the model's `result` and `port` are left out). -/
def Obligations.ResetStateIsTheSpecs : Prop :=
  AtReset State.reset

/-- R113: the reset input, as a step of its own, puts every piece of the block's state to its reset value, from any
state. -/
def Obligations.ResetInputResetsEverything : Prop :=
  ∀ (s : State) (rest : List Issue), s.port = .rst :: rest → ∃ t, step s = .next t ∧ AtReset t

/-- R24: the invariant holds right after reset. -/
def Obligations.ResetStateMeetsTheInvariant : Prop :=
  State.reset.Inv

/-- R24: every step keeps the invariant, from every state that meets it, whatever is issued. -/
def Obligations.EveryStepKeepsTheInvariant : Prop :=
  ∀ s t : State, s.Inv → step s = .next t → t.Inv

/-- R20, R108: from every state that meets the invariant, every step answers a next state: the block is always ready
for the next operation, and no operation ever reads an index that holds no value. That a UsageFault, a hold and an
issue that spells no row are next states is the model's reading (notes/assumptions/3.md, 4.md, 12.md). -/
def Obligations.NoStepStopsTheMachine : Prop :=
  ∀ s : State, s.Inv → ∃ t, step s = .next t

/-- R9: only `CRC.INIT` and `CRC.BYTE` write `CRC`; building and parsing in particular leave it alone. -/
def Obligations.OnlyCrcOperationsWriteCrc : Prop :=
  ∀ (i : Instr) (s t : State), exec i s = .next t → i ≠ .crcInit → (∀ b, i ≠ .crcByte b) → t.crc = s.crc

/-- R15, R120: the frame registers change only at `RX.PARSE`, on its own or at the end of a response row. -/
def Obligations.DecodedFrameIsKeptUntilTheNextParse : Prop :=
  ∀ (i : Instr) (s t : State), exec i s = .next t → i ≠ .rxParse →
    (∀ addr payload ack crc, ∀ row ∈ responseRows addr payload ack crc, i ≠ row.2) → t.frame = s.frame

/-- R66: a built frame in the queue is never changed by an instruction; only `LINE.TAKE` takes from it, in order. -/
def Obligations.QueuedFrameIsOnlyTakenInOrder : Prop :=
  ∀ (i : Instr) (s t : State), exec i s = .next t → s.txQ ≠ [] →
    (i = .lineTake ∧ ∃ b, s.txQ = b :: t.txQ ∧ t.result = .byte b) ∨ (i ≠ .lineTake ∧ t.txQ = s.txQ)

/-- R17, R101: `ERR` is the class and cause of a raised Encoding or Decoding error, and only such an error or
`ERR.CLR` changes it. -/
def Obligations.ErrRecordsExactlyTheRaisedErrors : Prop :=
  ∀ (i : Instr) (s t : State), exec i s = .next t →
    match t.result with
    | .raised (.encoding c) => t.err = errOfEncoding c
    | .raised (.decoding c) => t.err = errOfDecoding c
    | _ => (i = .errClr ∧ t.err = 0x00#6) ∨ (i ≠ .errClr ∧ t.err = s.err)

/-- R106, R107: an operation word that ends in a UsageFault or a hold changes no state at all (a request row, which
stages before it holds, is not an operation word). -/
def Obligations.UsageFaultsAndHoldsChangeNothing : Prop :=
  ∀ (i : Instr) (s t : State), i.framePayload = none → exec i s = .next t →
    (∃ c, t.result = .raised (.usage c)) ∨ (∃ h, t.result = .held h) → t = { s with result := t.result }

/-- R44, R48, R49: an agent may give `build` and `parse` any operands, also such as spell no row of the table: from an
empty queue, `build` ends as `build_bytes` does, and `parse` as `parse_bytes` does. That an agent gives one whole, as
one issue, is the model's choice (notes/assumptions/8.md, 9.md, 12.md). -/
def Obligations.PseudoInstructionsAgreeWithTheFunctions : Prop :=
  ∀ (s : State) (rest : List Issue),
    (∀ (cmd : Byte) (addr : Half) (payload : List Byte), s.port = .build cmd addr payload :: rest → s.txQ = [] →
      ∃ t, step s = .next t ∧
        t = { s with
          txCmd := cmd, txAddr := addr, txCnt := t.txCnt, txBuf := t.txBuf, txQ := t.txQ
          err := t.err, result := t.result, port := rest } ∧
        match buildBytes cmd addr payload with
        | .ok frame => t.result = .ok ∧ t.txQ = frame ∧ t.err = s.err
        | .error c => t.result = .raised (.encoding c) ∧ t.txQ = [] ∧ t.err = errOfEncoding c) ∧
    (∀ r : List Byte, s.port = .parse r :: rest →
      ∃ t, step s = .next t ∧
        t = { s with
          rxCnt := t.rxCnt, rxBuf := t.rxBuf, frame := t.frame, interp := .none
          err := t.err, result := t.result, port := rest } ∧
        match parseBytes r with
        | .ok p => t.result = .ok ∧ t.err = s.err ∧ ∃ f, t.frame = some f ∧ f.Shows p
        | .error c => t.result = .raised (.decoding c) ∧ t.frame = none ∧ t.err = errOfDecoding c)

/-- R47, R48: the call `build` with its defaults expands to `TX.NEW`, one `TX.PUSH` for each payload byte, `TX.BUILD`
and as many `LINE.TAKE` as the frame has bytes, and does nothing else. That the expansion is a step of its own is the
model's choice (notes/assumptions/17.md). -/
def Obligations.BuildCallExpandsToItsOperations : Prop :=
  ∀ (s : State) (cmd : Byte) (addr : Option Half) (payload : Option (List Byte)) (rest : List Issue),
    s.port = .buildCall cmd addr payload :: rest →
    let a := addr.getD 0x0000#16
    let p := payload.getD [0x00#8]
    step s = .next { s with
      port := .word (0x3#4 ++ 0x0#4 ++ cmd ++ a) :: p.map (fun b => .word (0x4#4 ++ 0x0#4 ++ b ++ 0x0000#16)) ++
        .word 0x50000000#32 :: List.replicate (7 + p.length) (.word 0x60000000#32) ++ rest }

/-- R48, R64: a call of `build` with a known opcode and a payload the length byte can count, issued on an empty queue,
is done after its expansion, its `TX.NEW`, its `TX.PUSH`es and its `TX.BUILD`, and then its `LINE.TAKE`s collect the
frame byte by byte, in frame order, and leave the queue empty (notes/assumptions/17.md). -/
def Obligations.BuildCallCollectsItsFrame : Prop :=
  ∀ (s : State) (cmd : Byte) (addr : Option Half) (payload : Option (List Byte)) (rest : List Issue),
    s.port = .buildCall cmd addr payload :: rest → s.txQ = [] → inCmdSet cmd = true →
    let a := addr.getD 0x0000#16
    let p := payload.getD [0x00#8]
    let frame := closed (requestBytes cmd a p) (crc16 (requestBytes cmd a p))
    p.length ≤ 255 → ∀ n, n < 7 + p.length →
      ∃ t b, Sys2Proof.core.run (p.length + 4 + n) s = .next t ∧ frame[n]? = some b ∧
        t = { s with
          txCmd := cmd, txAddr := a, txCnt := BitVec.ofNat 9 p.length, txBuf := t.txBuf, txQ := frame.drop (n + 1)
          result := .byte b, port := List.replicate (6 + p.length - n) (.word 0x60000000#32) ++ rest } ∧
        t.txBuf.holds p
end

