-- ==== Sys2Proof/Laws/Codec.lean ====
section
/-! SUPPORT. What the pure functions of the codec answer, said once. -/

namespace Sys2Proof.Machine

theorem countByte_toNat (n : Nat) (h : n ≤ 255) : (countByte n).toNat = n := by
  unfold countByte
  rw [BitVec.toNat_ofNat]
  omega

/-- What a frame that `parse_bytes` accepts satisfies (R70). -/
theorem parseBytes_ok (r : List Byte) (p : ParsedFrame) (h : parseBytes r = .ok p) :
    r.length = 8 + (byteAt r 4).toNat ∧ inCmdSet (byteAt r 1) = true ∧
    inAckSet (byteAt r (5 + (byteAt r 4).toNat)) = true ∧ byteAt r 0 = Config.startRsp ∧
    crc16 (r.take (r.length - 2)) = be16 (byteAt r (r.length - 2)) (byteAt r (r.length - 1)) ∧
    p = { cmd := byteAt r 1
          addr := be16 (byteAt r 2) (byteAt r 3)
          payload := (r.drop 5).take (byteAt r 4).toNat
          ack := byteAt r (5 + (byteAt r 4).toNat)
          crc := crc16 (r.take (r.length - 2)) } := by
  unfold parseBytes at h
  dsimp only at h
  split_ifs at h with h1 h2 h3 h4 h5 h6 h7
  injection h with h
  exact ⟨by simpa using h3, by simpa using h4, by simpa using h5, by simpa using h6, by simpa using h7, h.symm⟩

/-- An accepted frame's payload has as many bytes as its length byte says, at most 255 (R70). -/
theorem parseBytes_ok_payload_length (r : List Byte) (p : ParsedFrame) (h : parseBytes r = .ok p) :
    p.payload.length = (byteAt r 4).toNat ∧ p.payload.length ≤ 255 := by
  obtain ⟨hn, -, -, -, -, rfl⟩ := parseBytes_ok r p h
  have := (byteAt r 4).isLt
  simp only [List.length_take, List.length_drop]
  omega

/-- `parse_bytes` never reports the cause of `RX.PAYLOAD`. -/
theorem parseBytes_ne_payload (r : List Byte) : parseBytes r ≠ .error .payload := by
  unfold parseBytes
  dsimp only
  split_ifs <;> simp

/-- What `interpret_payload` can answer (R74). -/
theorem interpretPayload_cases (cmd : Byte) (payload : List Byte) :
    (cmd ≠ 0x37#8 ∧ interpretPayload cmd payload = .ok (.raw payload)) ∨
    (cmd = 0x37#8 ∧ ∃ sig0 sig1 boot m : Byte, payload = [sig0, sig1, boot, m] ∧ m.toNat ≤ 3 ∧
      interpretPayload cmd payload = .ok (.ident ⟨sig0, sig1, boot, m.setWidth 2, familyOf m⟩)) ∨
    (cmd = 0x37#8 ∧ (payload.length ≠ 4 ∨ ∃ sig0 sig1 boot m : Byte, payload = [sig0, sig1, boot, m] ∧ 3 < m.toNat) ∧
      interpretPayload cmd payload = .error .payload) := by
  unfold interpretPayload identCmd
  split_ifs with hc
  · refine .inr ?_
    split
    · rename_i sig0 sig1 boot m
      by_cases hm : m.toNat ≤ 3
      · exact .inl ⟨hc, sig0, sig1, boot, m, rfl, hm, by simp [knownMode, hm]⟩
      · exact .inr ⟨hc, .inr ⟨sig0, sig1, boot, m, rfl, by omega⟩, by simp [knownMode, hm]⟩
    · rename_i hne
      refine .inr ⟨hc, .inl fun hl => ?_, rfl⟩
      match payload, hl with
      | [a, b, c, d], _ => exact hne a b c d rfl
  · exact .inl ⟨hc, rfl⟩

/-- The frame registers of an accepted frame show it (R73). -/
theorem frameRegsOf_len (p : ParsedFrame) (h : p.payload.length ≤ 255) :
    (frameRegsOf p).len.toNat = p.payload.length :=
  countByte_toNat _ h

end Sys2Proof.Machine
end

