-- ==== Sys2Proof/Laws/Memory.lean ====
section
/-! SUPPORT. The byte stores: read after write, the canonical form is kept, and what a range of reads gives. -/

namespace Sys2Proof.Machine

/-- A read after a write to the same index gives the value written. -/
@[simp] theorem Memory.read_write_same (m : Memory) (i : Nat) (v : Byte) : (m.write i v).read i = some v := by
  induction m with
  | nil => simp [Memory.write, Memory.read]
  | cons c rest ih =>
    obtain ⟨j, b⟩ := c
    simp only [Memory.write]
    split_ifs with h1 h2
    · simp [Memory.read]
    · simp [Memory.read]
    · simp [Memory.read, ih, Ne.symm h2]

/-- A write leaves every other index alone. -/
theorem Memory.read_write_ne (m : Memory) (i j : Nat) (v : Byte) (h : j ≠ i) :
    (m.write i v).read j = m.read j := by
  induction m with
  | nil => simp [Memory.write, Memory.read, Ne.symm h]
  | cons c rest ih =>
    obtain ⟨k, b⟩ := c
    simp only [Memory.write]
    split_ifs with h1 h2
    · simp [Memory.read, Ne.symm h]
    · subst h2; simp [Memory.read, Ne.symm h]
    · simp [Memory.read, ih]

theorem Memory.wf_nil : Memory.wf [] := List.Pairwise.nil

/-- Every index of a written store is the written one or was there before. -/
theorem Memory.mem_write_index (m : Memory) (i : Nat) (v : Byte) (c : Host.Cell) (h : c ∈ m.write i v) :
    c.1 = i ∨ c ∈ m := by
  induction m with
  | nil => simp [Memory.write] at h; simp [h]
  | cons d rest ih =>
    obtain ⟨j, b⟩ := d
    simp only [Memory.write] at h
    split_ifs at h with h1 h2
    · rcases List.mem_cons.1 h with rfl | h'
      · exact .inl rfl
      · exact .inr h'
    · rcases List.mem_cons.1 h with rfl | h'
      · exact .inl rfl
      · exact .inr (List.mem_cons_of_mem _ h')
    · rcases List.mem_cons.1 h with rfl | h'
      · exact .inr (by simp)
      · rcases ih h' with h'' | h''
        · exact .inl h''
        · exact .inr (List.mem_cons_of_mem _ h'')

/-- A write keeps the canonical form. -/
theorem Memory.wf_write (m : Memory) (i : Nat) (v : Byte) (h : m.wf) : (m.write i v).wf := by
  induction m with
  | nil => simp [Memory.write, Memory.wf]
  | cons c rest ih =>
    obtain ⟨j, b⟩ := c
    have hrest : ∀ c ∈ rest, j < c.1 := (List.pairwise_cons.1 h).1
    have htail : Memory.wf rest := (List.pairwise_cons.1 h).2
    simp only [Memory.write]
    split_ifs with h1 h2
    · refine List.pairwise_cons.2 ⟨fun c hc => ?_, h⟩
      rcases List.mem_cons.1 hc with rfl | hc
      · exact h1
      · exact h1.trans (hrest c hc)
    · subst h2
      exact List.pairwise_cons.2 ⟨hrest, htail⟩
    · refine List.pairwise_cons.2 ⟨fun c hc => ?_, ih htail⟩
      rcases Memory.mem_write_index rest i v c hc with h' | h'
      · simp only [h']; omega
      · exact hrest c h'

/-- Writing a sequence keeps the canonical form. -/
theorem Memory.wf_writeFrom (bytes : List Byte) (m : Memory) (start : Nat) (h : m.wf) :
    (m.writeFrom start bytes).wf := by
  induction bytes generalizing m start with
  | nil => exact h
  | cons b bs ih => exact ih _ _ (Memory.wf_write _ _ _ h)

/-- Every byte store of the reset state is in the canonical form. -/
theorem State.reset_memories_wf : State.reset.txBuf.wf ∧ State.reset.rxBuf.wf :=
  ⟨List.Pairwise.nil, List.Pairwise.nil⟩

/-- A store that holds exactly the indices below `n` is in the canonical form. -/
theorem Memory.holdsBelow.wf {m : Memory} {n : Nat} (h : m.holdsBelow n) : m.wf := by
  have hp : (m.map Prod.fst).Pairwise (· < ·) := h ▸ List.pairwise_lt_range
  exact List.pairwise_map.1 hp

/-- Writing above every listed index appends the cell. -/
theorem Memory.write_above (m : Memory) (i : Nat) (v : Byte) (h : ∀ c ∈ m, c.1 < i) :
    m.write i v = m ++ [(i, v)] := by
  induction m with
  | nil => rfl
  | cons c rest ih =>
    obtain ⟨j, b⟩ := c
    have hj : j < i := h (j, b) (by simp)
    simp only [Memory.write, Nat.not_lt.2 hj.le, if_false, (Nat.ne_of_lt hj).symm]
    rw [ih fun c hc => h c (List.mem_cons_of_mem _ hc)]
    rfl

theorem Memory.holdsBelow.index_lt {m : Memory} {n : Nat} (h : m.holdsBelow n) {c : Host.Cell} (hc : c ∈ m) :
    c.1 < n := by
  have : c.1 ∈ List.range n := h ▸ List.mem_map_of_mem hc
  simpa using this

/-- Writing the next index extends the range that holds a value by one. -/
theorem Memory.holdsBelow.write {m : Memory} {n : Nat} (h : m.holdsBelow n) (v : Byte) :
    (m.write n v).holdsBelow (n + 1) := by
  rw [Memory.write_above m n v fun c hc => h.index_lt hc]
  unfold Memory.holdsBelow at *
  rw [List.map_append, h, List.range_succ]
  rfl

/-- An index that a store lists is read. -/
theorem Memory.read_isSome_iff (m : Memory) (i : Nat) : (m.read i).isSome = true ↔ i ∈ m.map Prod.fst := by
  induction m with
  | nil => simp [Memory.read]
  | cons c rest ih =>
    obtain ⟨j, b⟩ := c
    by_cases hj : j = i
    · simp [Memory.read, hj]
    · simp [Memory.read, hj, Ne.symm hj, ih]

/-- Exactly the indices below `n` hold a value. -/
theorem Memory.holdsBelow.read_isSome {m : Memory} {n : Nat} (h : m.holdsBelow n) (i : Nat) :
    (m.read i).isSome = true ↔ i < n := by
  rw [Memory.read_isSome_iff, h, List.mem_range]

/-- What a range of reads gives, read by read. -/
theorem Memory.readFrom_eq_some_iff (m : Memory) (start n : Nat) (bytes : List Byte) :
    m.readFrom start n = some bytes ↔
      bytes.length = n ∧ ∀ k, k < n → m.read (start + k) = bytes[k]? := by
  induction n generalizing start bytes with
  | zero =>
    simp only [Memory.readFrom, Option.some.injEq, Nat.not_lt_zero, false_implies, implies_true, and_true]
    exact ⟨fun h => by simp [← h], fun h => (List.length_eq_zero_iff.1 h).symm⟩
  | succ n ih =>
    simp only [Memory.readFrom]
    constructor
    · intro h
      cases hb : m.read start with
      | none => simp [hb] at h
      | some b =>
        cases hr : m.readFrom (start + 1) n with
        | none => simp [hb, hr] at h
        | some bs =>
          simp only [hb, hr, Option.some.injEq] at h
          subst h
          obtain ⟨hlen, hread⟩ := (ih (start + 1) bs).1 hr
          refine ⟨by simp [hlen], fun k hk => ?_⟩
          cases k with
          | zero => simpa using hb
          | succ k =>
            have := hread k (by omega)
            rw [show start + (k + 1) = start + 1 + k by omega, this]
            simp
    · rintro ⟨hlen, hread⟩
      cases bytes with
      | nil => simp at hlen
      | cons b bs =>
        have h0 : m.read start = some b := by simpa using hread 0 (by omega)
        have hr : m.readFrom (start + 1) n = some bs := by
          refine (ih (start + 1) bs).2 ⟨by simpa using hlen, fun k hk => ?_⟩
          have := hread (k + 1) (by omega)
          rw [show start + 1 + k = start + (k + 1) by omega, this]
          simp
        simp [h0, hr]

/-- A store that holds the indices below `n` can be read whole. -/
theorem Memory.holdsBelow.readFrom {m : Memory} {n : Nat} (h : m.holdsBelow n) :
    ∃ bytes, m.readFrom 0 n = some bytes ∧ bytes.length = n := by
  have key : ∀ k start, start + k ≤ n → ∃ bytes, m.readFrom start k = some bytes := by
    intro k
    induction k with
    | zero => intro start _; exact ⟨[], rfl⟩
    | succ k ih =>
      intro start hs
      obtain ⟨b, hb⟩ := Option.isSome_iff_exists.1 ((h.read_isSome start).2 (by omega))
      obtain ⟨bs, hbs⟩ := ih (start + 1) (by omega)
      exact ⟨b :: bs, by simp [Memory.readFrom, hb, hbs]⟩
  obtain ⟨bytes, hb⟩ := key n 0 (by omega)
  exact ⟨bytes, hb, ((Memory.readFrom_eq_some_iff _ _ _ _).1 hb).1⟩

/-- Writing a sequence at the first free index of a full range extends the range by its length. -/
theorem Memory.holdsBelow.writeFrom {m : Memory} {n : Nat} (h : m.holdsBelow n) (bytes : List Byte) :
    (m.writeFrom n bytes).holdsBelow (n + bytes.length) := by
  induction bytes generalizing m n with
  | nil => simpa [Memory.writeFrom] using h
  | cons b bs ih =>
    have := ih (h.write b)
    simpa [Memory.writeFrom, Nat.add_assoc, Nat.add_comm 1] using this

/-- Indices below the start of a written sequence are untouched. -/
theorem Memory.read_writeFrom_below (bytes : List Byte) (m : Memory) (start i : Nat) (h : i < start) :
    (m.writeFrom start bytes).read i = m.read i := by
  induction bytes generalizing m start with
  | nil => rfl
  | cons b bs ih =>
    rw [Memory.writeFrom, ih _ _ (by omega), Memory.read_write_ne _ _ _ _ (by omega)]

/-- A written sequence is read back, byte `k` at index `start + k`. -/
theorem Memory.read_writeFrom (bytes : List Byte) (m : Memory) (start k : Nat) (h : k < bytes.length) :
    (m.writeFrom start bytes).read (start + k) = bytes[k]? := by
  induction bytes generalizing m start k with
  | nil => simp at h
  | cons b bs ih =>
    cases k with
    | zero => simp [Memory.writeFrom, Memory.read_writeFrom_below]
    | succ k =>
      rw [Memory.writeFrom, show start + (k + 1) = start + 1 + k by omega, ih _ _ _ (by simpa using h)]
      simp

/-- A sequence written to an empty store is all the store holds. -/
theorem Memory.read_ofBytes (bytes : List Byte) (i : Nat) : (Memory.writeFrom [] 0 bytes).read i = bytes[i]? := by
  by_cases h : i < bytes.length
  · simpa using Memory.read_writeFrom bytes [] 0 i h
  · have hb : Memory.holdsBelow (Memory.writeFrom [] 0 bytes) bytes.length := by
      have h0 : Memory.holdsBelow [] 0 := rfl
      simpa using h0.writeFrom bytes
    have : ¬ ((Memory.writeFrom [] 0 bytes).read i).isSome = true := by rw [hb.read_isSome]; exact h
    rw [List.getElem?_eq_none (by omega)]
    simpa using this

/-- Reading back a whole sequence written to an empty store. -/
@[simp] theorem Memory.readFrom_ofBytes (bytes : List Byte) :
    (Memory.writeFrom [] 0 bytes).readFrom 0 bytes.length = some bytes :=
  (Memory.readFrom_eq_some_iff _ _ _ _).2
    ⟨rfl, fun k hk => by simpa using Memory.read_writeFrom bytes [] 0 k hk⟩

/-- Writing the byte after a sequence is writing the longer sequence. -/
theorem Memory.write_after (bytes : List Byte) (m : Memory) (start : Nat) (b : Byte) :
    (m.writeFrom start bytes).write (start + bytes.length) b = m.writeFrom start (bytes ++ [b]) := by
  induction bytes generalizing m start with
  | nil => rfl
  | cons c cs ih =>
    have := ih (m.write start c) (start + 1)
    simpa [Memory.writeFrom, Nat.add_assoc, Nat.add_comm 1] using this

end Sys2Proof.Machine
end

