-- ==== Sys2Proof/Laws/State.lean ====
section
/-! SUPPORT. One lemma per field per state update, so that no proof unfolds a record update. -/

namespace Sys2Proof.Machine

@[simp] theorem State.finish_crc (s : State) (r : Result) : (s.finish r).crc = s.crc := rfl
@[simp] theorem State.finish_txCmd (s : State) (r : Result) : (s.finish r).txCmd = s.txCmd := rfl
@[simp] theorem State.finish_txAddr (s : State) (r : Result) : (s.finish r).txAddr = s.txAddr := rfl
@[simp] theorem State.finish_txCnt (s : State) (r : Result) : (s.finish r).txCnt = s.txCnt := rfl
@[simp] theorem State.finish_txBuf (s : State) (r : Result) : (s.finish r).txBuf = s.txBuf := rfl
@[simp] theorem State.finish_txQ (s : State) (r : Result) : (s.finish r).txQ = s.txQ := rfl
@[simp] theorem State.finish_rxCnt (s : State) (r : Result) : (s.finish r).rxCnt = s.rxCnt := rfl
@[simp] theorem State.finish_rxBuf (s : State) (r : Result) : (s.finish r).rxBuf = s.rxBuf := rfl
@[simp] theorem State.finish_frame (s : State) (r : Result) : (s.finish r).frame = s.frame := rfl
@[simp] theorem State.finish_interp (s : State) (r : Result) : (s.finish r).interp = s.interp := rfl
@[simp] theorem State.finish_err (s : State) (r : Result) : (s.finish r).err = s.err := rfl
@[simp] theorem State.finish_result (s : State) (r : Result) : (s.finish r).result = r := rfl
@[simp] theorem State.finish_port (s : State) (r : Result) : (s.finish r).port = s.port := rfl

@[simp] theorem State.hold_crc (s : State) (h : Hold) : (s.hold h).crc = s.crc := rfl
@[simp] theorem State.hold_txCmd (s : State) (h : Hold) : (s.hold h).txCmd = s.txCmd := rfl
@[simp] theorem State.hold_txAddr (s : State) (h : Hold) : (s.hold h).txAddr = s.txAddr := rfl
@[simp] theorem State.hold_txCnt (s : State) (h : Hold) : (s.hold h).txCnt = s.txCnt := rfl
@[simp] theorem State.hold_txBuf (s : State) (h : Hold) : (s.hold h).txBuf = s.txBuf := rfl
@[simp] theorem State.hold_txQ (s : State) (h : Hold) : (s.hold h).txQ = s.txQ := rfl
@[simp] theorem State.hold_rxCnt (s : State) (h : Hold) : (s.hold h).rxCnt = s.rxCnt := rfl
@[simp] theorem State.hold_rxBuf (s : State) (h : Hold) : (s.hold h).rxBuf = s.rxBuf := rfl
@[simp] theorem State.hold_frame (s : State) (h : Hold) : (s.hold h).frame = s.frame := rfl
@[simp] theorem State.hold_interp (s : State) (h : Hold) : (s.hold h).interp = s.interp := rfl
@[simp] theorem State.hold_err (s : State) (h : Hold) : (s.hold h).err = s.err := rfl
@[simp] theorem State.hold_result (s : State) (h : Hold) : (s.hold h).result = .held h := rfl
@[simp] theorem State.hold_port (s : State) (h : Hold) : (s.hold h).port = s.port := rfl

@[simp] theorem State.stageNew_crc (s : State) (cmd : Byte) (addr : Half) : (s.stageNew cmd addr).crc = s.crc := rfl
@[simp] theorem State.stageNew_txCmd (s : State) (cmd : Byte) (addr : Half) : (s.stageNew cmd addr).txCmd = cmd := rfl
@[simp] theorem State.stageNew_txAddr (s : State) (cmd : Byte) (addr : Half) : (s.stageNew cmd addr).txAddr = addr := rfl
@[simp] theorem State.stageNew_txCnt (s : State) (cmd : Byte) (addr : Half) : (s.stageNew cmd addr).txCnt = 0#9 := rfl
@[simp] theorem State.stageNew_txBuf (s : State) (cmd : Byte) (addr : Half) : (s.stageNew cmd addr).txBuf = [] := rfl
@[simp] theorem State.stageNew_txQ (s : State) (cmd : Byte) (addr : Half) : (s.stageNew cmd addr).txQ = s.txQ := rfl
@[simp] theorem State.stageNew_rxCnt (s : State) (cmd : Byte) (addr : Half) : (s.stageNew cmd addr).rxCnt = s.rxCnt := rfl
@[simp] theorem State.stageNew_rxBuf (s : State) (cmd : Byte) (addr : Half) : (s.stageNew cmd addr).rxBuf = s.rxBuf := rfl
@[simp] theorem State.stageNew_frame (s : State) (cmd : Byte) (addr : Half) : (s.stageNew cmd addr).frame = s.frame := rfl
@[simp] theorem State.stageNew_interp (s : State) (cmd : Byte) (addr : Half) : (s.stageNew cmd addr).interp = s.interp := rfl
@[simp] theorem State.stageNew_err (s : State) (cmd : Byte) (addr : Half) : (s.stageNew cmd addr).err = s.err := rfl
@[simp] theorem State.stageNew_result (s : State) (cmd : Byte) (addr : Half) : (s.stageNew cmd addr).result = s.result := rfl
@[simp] theorem State.stageNew_port (s : State) (cmd : Byte) (addr : Half) : (s.stageNew cmd addr).port = s.port := rfl

@[simp] theorem State.clearReceived_crc (s : State) : (s.clearReceived).crc = s.crc := rfl
@[simp] theorem State.clearReceived_txCmd (s : State) : (s.clearReceived).txCmd = s.txCmd := rfl
@[simp] theorem State.clearReceived_txAddr (s : State) : (s.clearReceived).txAddr = s.txAddr := rfl
@[simp] theorem State.clearReceived_txCnt (s : State) : (s.clearReceived).txCnt = s.txCnt := rfl
@[simp] theorem State.clearReceived_txBuf (s : State) : (s.clearReceived).txBuf = s.txBuf := rfl
@[simp] theorem State.clearReceived_txQ (s : State) : (s.clearReceived).txQ = s.txQ := rfl
@[simp] theorem State.clearReceived_rxCnt (s : State) : (s.clearReceived).rxCnt = 0#9 := rfl
@[simp] theorem State.clearReceived_rxBuf (s : State) : (s.clearReceived).rxBuf = [] := rfl
@[simp] theorem State.clearReceived_frame (s : State) : (s.clearReceived).frame = s.frame := rfl
@[simp] theorem State.clearReceived_interp (s : State) : (s.clearReceived).interp = s.interp := rfl
@[simp] theorem State.clearReceived_err (s : State) : (s.clearReceived).err = s.err := rfl
@[simp] theorem State.clearReceived_result (s : State) : (s.clearReceived).result = s.result := rfl
@[simp] theorem State.clearReceived_port (s : State) : (s.clearReceived).port = s.port := rfl

@[simp] theorem State.applyReset_crc (s : State) : (s.applyReset).crc = State.reset.crc := rfl
@[simp] theorem State.applyReset_txCmd (s : State) : (s.applyReset).txCmd = State.reset.txCmd := rfl
@[simp] theorem State.applyReset_txAddr (s : State) : (s.applyReset).txAddr = State.reset.txAddr := rfl
@[simp] theorem State.applyReset_txCnt (s : State) : (s.applyReset).txCnt = State.reset.txCnt := rfl
@[simp] theorem State.applyReset_txBuf (s : State) : (s.applyReset).txBuf = State.reset.txBuf := rfl
@[simp] theorem State.applyReset_txQ (s : State) : (s.applyReset).txQ = State.reset.txQ := rfl
@[simp] theorem State.applyReset_rxCnt (s : State) : (s.applyReset).rxCnt = State.reset.rxCnt := rfl
@[simp] theorem State.applyReset_rxBuf (s : State) : (s.applyReset).rxBuf = State.reset.rxBuf := rfl
@[simp] theorem State.applyReset_frame (s : State) : (s.applyReset).frame = State.reset.frame := rfl
@[simp] theorem State.applyReset_interp (s : State) : (s.applyReset).interp = State.reset.interp := rfl
@[simp] theorem State.applyReset_err (s : State) : (s.applyReset).err = State.reset.err := rfl
@[simp] theorem State.applyReset_result (s : State) : (s.applyReset).result = State.reset.result := rfl
@[simp] theorem State.applyReset_port (s : State) : (s.applyReset).port = s.port := rfl

@[simp] theorem State.stagePush_crc (s : State) (b : Byte) : (s.stagePush b).crc = s.crc := by
  unfold State.stagePush; split_ifs <;> rfl
@[simp] theorem State.stagePush_txCmd (s : State) (b : Byte) : (s.stagePush b).txCmd = s.txCmd := by
  unfold State.stagePush; split_ifs <;> rfl
@[simp] theorem State.stagePush_txAddr (s : State) (b : Byte) : (s.stagePush b).txAddr = s.txAddr := by
  unfold State.stagePush; split_ifs <;> rfl
@[simp] theorem State.stagePush_txQ (s : State) (b : Byte) : (s.stagePush b).txQ = s.txQ := by
  unfold State.stagePush; split_ifs <;> rfl
@[simp] theorem State.stagePush_rxCnt (s : State) (b : Byte) : (s.stagePush b).rxCnt = s.rxCnt := by
  unfold State.stagePush; split_ifs <;> rfl
@[simp] theorem State.stagePush_rxBuf (s : State) (b : Byte) : (s.stagePush b).rxBuf = s.rxBuf := by
  unfold State.stagePush; split_ifs <;> rfl
@[simp] theorem State.stagePush_frame (s : State) (b : Byte) : (s.stagePush b).frame = s.frame := by
  unfold State.stagePush; split_ifs <;> rfl
@[simp] theorem State.stagePush_interp (s : State) (b : Byte) : (s.stagePush b).interp = s.interp := by
  unfold State.stagePush; split_ifs <;> rfl
@[simp] theorem State.stagePush_err (s : State) (b : Byte) : (s.stagePush b).err = s.err := by
  unfold State.stagePush; split_ifs <;> rfl
@[simp] theorem State.stagePush_result (s : State) (b : Byte) : (s.stagePush b).result = s.result := by
  unfold State.stagePush; split_ifs <;> rfl
@[simp] theorem State.stagePush_port (s : State) (b : Byte) : (s.stagePush b).port = s.port := by
  unfold State.stagePush; split_ifs <;> rfl

@[simp] theorem State.receive_crc (s : State) (b : Byte) : (s.receive b).crc = s.crc := by
  unfold State.receive; split_ifs <;> rfl
@[simp] theorem State.receive_txCmd (s : State) (b : Byte) : (s.receive b).txCmd = s.txCmd := by
  unfold State.receive; split_ifs <;> rfl
@[simp] theorem State.receive_txAddr (s : State) (b : Byte) : (s.receive b).txAddr = s.txAddr := by
  unfold State.receive; split_ifs <;> rfl
@[simp] theorem State.receive_txCnt (s : State) (b : Byte) : (s.receive b).txCnt = s.txCnt := by
  unfold State.receive; split_ifs <;> rfl
@[simp] theorem State.receive_txBuf (s : State) (b : Byte) : (s.receive b).txBuf = s.txBuf := by
  unfold State.receive; split_ifs <;> rfl
@[simp] theorem State.receive_txQ (s : State) (b : Byte) : (s.receive b).txQ = s.txQ := by
  unfold State.receive; split_ifs <;> rfl
@[simp] theorem State.receive_frame (s : State) (b : Byte) : (s.receive b).frame = s.frame := by
  unfold State.receive; split_ifs <;> rfl
@[simp] theorem State.receive_interp (s : State) (b : Byte) : (s.receive b).interp = s.interp := by
  unfold State.receive; split_ifs <;> rfl
@[simp] theorem State.receive_err (s : State) (b : Byte) : (s.receive b).err = s.err := by
  unfold State.receive; split_ifs <;> rfl
@[simp] theorem State.receive_result (s : State) (b : Byte) : (s.receive b).result = s.result := by
  unfold State.receive; split_ifs <;> rfl
@[simp] theorem State.receive_port (s : State) (b : Byte) : (s.receive b).port = s.port := by
  unfold State.receive; split_ifs <;> rfl

@[simp] theorem State.raise_crc (s : State) (r : Raised) : (s.raise r).crc = s.crc := by
  unfold State.raise; split <;> rfl
@[simp] theorem State.raise_txCmd (s : State) (r : Raised) : (s.raise r).txCmd = s.txCmd := by
  unfold State.raise; split <;> rfl
@[simp] theorem State.raise_txAddr (s : State) (r : Raised) : (s.raise r).txAddr = s.txAddr := by
  unfold State.raise; split <;> rfl
@[simp] theorem State.raise_txCnt (s : State) (r : Raised) : (s.raise r).txCnt = s.txCnt := by
  unfold State.raise; split <;> rfl
@[simp] theorem State.raise_txBuf (s : State) (r : Raised) : (s.raise r).txBuf = s.txBuf := by
  unfold State.raise; split <;> rfl
@[simp] theorem State.raise_txQ (s : State) (r : Raised) : (s.raise r).txQ = s.txQ := by
  unfold State.raise; split <;> rfl
@[simp] theorem State.raise_rxCnt (s : State) (r : Raised) : (s.raise r).rxCnt = s.rxCnt := by
  unfold State.raise; split <;> rfl
@[simp] theorem State.raise_rxBuf (s : State) (r : Raised) : (s.raise r).rxBuf = s.rxBuf := by
  unfold State.raise; split <;> rfl
@[simp] theorem State.raise_err (s : State) (r : Raised) : (s.raise r).err = errAfter r s.err := by
  unfold State.raise; split <;> rfl
@[simp] theorem State.raise_result (s : State) (r : Raised) : (s.raise r).result = .raised r := by
  unfold State.raise; split <;> rfl
@[simp] theorem State.raise_port (s : State) (r : Raised) : (s.raise r).port = s.port := by
  unfold State.raise; split <;> rfl

@[simp] theorem State.raise_encoding_frame (s : State) (c : EncodingCause) :
    (s.raise (.encoding c)).frame = s.frame := rfl
@[simp] theorem State.raise_encoding_interp (s : State) (c : EncodingCause) :
    (s.raise (.encoding c)).interp = s.interp := rfl
@[simp] theorem State.raise_usage_frame (s : State) (c : UsageCause) :
    (s.raise (.usage c)).frame = s.frame := rfl
@[simp] theorem State.raise_usage_interp (s : State) (c : UsageCause) :
    (s.raise (.usage c)).interp = s.interp := rfl
@[simp] theorem State.raise_payload_frame (s : State) :
    (s.raise (.decoding .payload)).frame = s.frame := rfl
@[simp] theorem State.raise_decoding_interp (s : State) (c : DecodingCause) :
    (s.raise (.decoding c)).interp = .none := by
  cases c <;> rfl
theorem State.raise_decoding_frame (s : State) (c : DecodingCause) (h : c ≠ .payload) :
    (s.raise (.decoding c)).frame = none := by
  cases c <;> first | rfl | exact absurd rfl h

/-- A UsageFault changes nothing but the outcome delivered (R106). -/
theorem State.raise_usage (s : State) (c : UsageCause) :
    s.raise (.usage c) = { s with result := .raised (.usage c) } := rfl

/-- An EncodingError changes nothing but `ERR` and the outcome delivered (R106). -/
theorem State.raise_encoding (s : State) (c : EncodingCause) :
    s.raise (.encoding c) =
      { s with err := errAfter (.encoding c) s.err, result := .raised (.encoding c) } := rfl

/-- A DecodingError of `RX.PARSE` (R106). -/
theorem State.raise_decoding (s : State) (c : DecodingCause) (h : c ≠ .payload) :
    s.raise (.decoding c) = { s with
      frame := none, interp := .none, err := errAfter (.decoding c) s.err, result := .raised (.decoding c) } := by
  cases c <;> first | rfl | exact absurd rfl h

@[simp] theorem State.expandBuild_crc (s : State) (cmd : Byte) (addr : Option Half) (payload : Option (List Byte)) :
    (s.expandBuild cmd addr payload).crc = s.crc := rfl
@[simp] theorem State.expandBuild_txCmd (s : State) (cmd : Byte) (addr : Option Half) (payload : Option (List Byte)) :
    (s.expandBuild cmd addr payload).txCmd = s.txCmd := rfl
@[simp] theorem State.expandBuild_txAddr (s : State) (cmd : Byte) (addr : Option Half) (payload : Option (List Byte)) :
    (s.expandBuild cmd addr payload).txAddr = s.txAddr := rfl
@[simp] theorem State.expandBuild_txCnt (s : State) (cmd : Byte) (addr : Option Half) (payload : Option (List Byte)) :
    (s.expandBuild cmd addr payload).txCnt = s.txCnt := rfl
@[simp] theorem State.expandBuild_txBuf (s : State) (cmd : Byte) (addr : Option Half) (payload : Option (List Byte)) :
    (s.expandBuild cmd addr payload).txBuf = s.txBuf := rfl
@[simp] theorem State.expandBuild_txQ (s : State) (cmd : Byte) (addr : Option Half) (payload : Option (List Byte)) :
    (s.expandBuild cmd addr payload).txQ = s.txQ := rfl
@[simp] theorem State.expandBuild_rxCnt (s : State) (cmd : Byte) (addr : Option Half) (payload : Option (List Byte)) :
    (s.expandBuild cmd addr payload).rxCnt = s.rxCnt := rfl
@[simp] theorem State.expandBuild_rxBuf (s : State) (cmd : Byte) (addr : Option Half) (payload : Option (List Byte)) :
    (s.expandBuild cmd addr payload).rxBuf = s.rxBuf := rfl
@[simp] theorem State.expandBuild_frame (s : State) (cmd : Byte) (addr : Option Half) (payload : Option (List Byte)) :
    (s.expandBuild cmd addr payload).frame = s.frame := rfl
@[simp] theorem State.expandBuild_interp (s : State) (cmd : Byte) (addr : Option Half) (payload : Option (List Byte)) :
    (s.expandBuild cmd addr payload).interp = s.interp := rfl
@[simp] theorem State.expandBuild_err (s : State) (cmd : Byte) (addr : Option Half) (payload : Option (List Byte)) :
    (s.expandBuild cmd addr payload).err = s.err := rfl
@[simp] theorem State.expandBuild_result (s : State) (cmd : Byte) (addr : Option Half) (payload : Option (List Byte)) :
    (s.expandBuild cmd addr payload).result = s.result := rfl
@[simp] theorem State.expandBuild_port (s : State) (cmd : Byte) (addr : Option Half) (payload : Option (List Byte)) :
    (s.expandBuild cmd addr payload).port = issues (buildExpansion cmd (addr.getD Config.defaultAddress)
      (payload.getD Config.defaultPayload)) ++ s.port := rfl

end Sys2Proof.Machine
end

