-- ==== Sys2Proof/Laws/Ops.lean ====
section
/-! SUPPORT. Once per shared operation, everything it can do. The provers cite these instead of unfolding. -/

namespace Sys2Proof.Machine

/-- `TX.PUSH`: one of three cases (R62). -/
theorem State.stagePush_cases (s : State) (b : Byte) :
    (s.txCnt.toNat < 255 ∧
      s.stagePush b = { s with txBuf := s.txBuf.write s.txCnt.toNat b, txCnt := s.txCnt + 1#9 }) ∨
    (s.txCnt.toNat = 255 ∧ s.stagePush b = { s with txCnt := 256#9 }) ∨
    (255 < s.txCnt.toNat ∧ s.stagePush b = s) := by
  unfold State.stagePush Config.maxPayload
  split_ifs with h1 h2
  · exact .inl ⟨h1, rfl⟩
  · exact .inr (.inl ⟨h2, rfl⟩)
  · exact .inr (.inr ⟨by omega, rfl⟩)

/-- `RX.PUSH`: one of three cases (R72). -/
theorem State.receive_cases (s : State) (b : Byte) :
    (s.rxCnt.toNat < 263 ∧
      s.receive b = { s with rxBuf := s.rxBuf.write s.rxCnt.toNat b, rxCnt := s.rxCnt + 1#9 }) ∨
    (s.rxCnt.toNat = 263 ∧ s.receive b = { s with rxCnt := 264#9 }) ∨
    (263 < s.rxCnt.toNat ∧ s.receive b = s) := by
  unfold State.receive Config.rxDepth
  split_ifs with h1 h2
  · exact .inl ⟨h1, rfl⟩
  · exact .inr (.inl ⟨h2, rfl⟩)
  · exact .inr (.inr ⟨by omega, rfl⟩)

/-- `TX.BUILD`, when it answers a next state: one of four cases, in the order of the tests (R63, R105). -/
theorem State.buildFrame_next (s t : State) (h : s.buildFrame = .next t) :
    (inCmdSet s.txCmd = false ∧ t = s.raise (.encoding .opcode)) ∨
    (inCmdSet s.txCmd = true ∧ 255 < s.txCnt.toNat ∧ t = s.raise (.encoding .oversize)) ∨
    (inCmdSet s.txCmd = true ∧ s.txCnt.toNat ≤ 255 ∧ s.txQ ≠ [] ∧ t = s.hold .busy) ∨
    (inCmdSet s.txCmd = true ∧ s.txCnt.toNat ≤ 255 ∧ s.txQ = [] ∧
      ∃ payload, s.txBuf.readFrom 0 s.txCnt.toNat = some payload ∧
        t = { s with txQ := requestFrame s.txCmd s.txAddr payload, result := .ok }) := by
  unfold State.buildFrame Config.maxPayload at h
  split_ifs at h with h1 h2 h3
  · exact .inl ⟨by simpa using h1, by simpa using h.symm⟩
  · exact .inr (.inl ⟨by simpa using h1, h2, by simpa using h.symm⟩)
  · exact .inr (.inr (.inl ⟨by simpa using h1, by omega, by simpa using h3, by simpa using h.symm⟩))
  · refine .inr (.inr (.inr ⟨by simpa using h1, by omega, by simpa using h3, ?_⟩))
    split at h
    · cases h
    · exact ⟨_, by assumption, by simpa [State.finish] using h.symm⟩

/-- `TX.BUILD` answers a next state when `TXBUF` holds the staged bytes (R20). -/
theorem State.buildFrame_completes (s : State) (h : s.txCnt.toNat ≤ 255 → s.txBuf.holdsBelow s.txCnt.toNat) :
    ∃ t, s.buildFrame = .next t := by
  unfold State.buildFrame Config.maxPayload
  split_ifs with h1 h2 h3
  · exact ⟨_, rfl⟩
  · exact ⟨_, rfl⟩
  · exact ⟨_, rfl⟩
  · obtain ⟨bytes, hb, _⟩ := (h (by omega)).readFrom
    simp only [hb]
    exact ⟨_, rfl⟩

/-- `LINE.TAKE`: one of two cases (R65). -/
theorem State.takeByte_cases (s : State) :
    (s.txQ = [] ∧ s.takeByte = s.hold .empty) ∨
    (∃ b rest, s.txQ = b :: rest ∧ s.takeByte = { s with txQ := rest, result := .byte b }) := by
  unfold State.takeByte
  split
  · exact .inl ⟨by assumption, rfl⟩
  · exact .inr ⟨_, _, by assumption, rfl⟩

/-- What `RX.PARSE` leaves once the bytes are judged (R73). -/
theorem State.judge_cases (s : State) (v : Except DecodingCause ParsedFrame) :
    (∃ c, v = .error c ∧ s.judge v = s.raise (.decoding c)) ∨
    (∃ p, v = .ok p ∧ s.judge v = { s with frame := some (frameRegsOf p), interp := .none, result := .ok }) := by
  cases v with
  | error c => exact .inl ⟨c, rfl, rfl⟩
  | ok p => exact .inr ⟨p, rfl, rfl⟩

/-- `RX.PARSE`, when it answers a next state (R73). -/
theorem State.parseReceived_next (s t : State) (h : s.parseReceived = .next t) :
    (263 < s.rxCnt.toNat ∧ t = s.judge (.error .length)) ∨
    (s.rxCnt.toNat ≤ 263 ∧ ∃ r, s.rxBuf.readFrom 0 s.rxCnt.toNat = some r ∧ t = s.judge (parseBytes r)) := by
  unfold State.parseReceived Config.rxDepth at h
  split_ifs at h with h1
  · exact .inl ⟨h1, by simpa using h.symm⟩
  · refine .inr ⟨by omega, ?_⟩
    split at h
    · cases h
    · exact ⟨_, by assumption, by simpa using h.symm⟩

/-- `RX.PARSE` answers a next state when `RXBUF` holds the received bytes (R20). -/
theorem State.parseReceived_completes (s : State)
    (h : s.rxCnt.toNat ≤ 263 → s.rxBuf.holdsBelow s.rxCnt.toNat) : ∃ t, s.parseReceived = .next t := by
  unfold State.parseReceived Config.rxDepth
  split_ifs with h1
  · exact ⟨_, rfl⟩
  · obtain ⟨bytes, hb, _⟩ := (h (by omega)).readFrom
    simp only [hb]
    exact ⟨_, rfl⟩

/-- `RX.PAYLOAD`, when it answers a next state: no frame, a malformed identification payload, an
identification payload, or raw bytes (R75). -/
theorem State.interpretFrame_next (s t : State) (h : s.interpretFrame = .next t) :
    (s.frame = none ∧ t = s.raise (.usage .noValue)) ∨
    (∃ f payload, s.frame = some f ∧ f.pl.readFrom 0 f.len.toNat = some payload ∧
      ((∃ c, interpretPayload f.cmd payload = .error c ∧ t = s.raise (.decoding c)) ∨
       (∃ r, interpretPayload f.cmd payload = .ok (.ident r) ∧ t = { s with interp := .ident r, result := .ok }) ∨
       (∃ p, interpretPayload f.cmd payload = .ok (.raw p) ∧ t = { s with interp := .raw, result := .ok }))) := by
  unfold State.interpretFrame at h
  split at h
  · exact .inl ⟨by assumption, by simpa using h.symm⟩
  · rename_i f hf
    split at h
    · cases h
    · rename_i payload hp
      refine .inr ⟨f, payload, hf, hp, ?_⟩
      split at h
      · exact .inl ⟨_, by assumption, by simpa using h.symm⟩
      · exact .inr (.inl ⟨_, by assumption, by simpa [State.finish] using h.symm⟩)
      · exact .inr (.inr ⟨_, by assumption, by simpa [State.finish] using h.symm⟩)

/-- `RX.PAYLOAD` answers a next state when `F_PL` holds the payload bytes (R20). -/
theorem State.interpretFrame_completes (s : State)
    (h : ∀ f, s.frame = some f → f.pl.holdsBelow f.len.toNat) : ∃ t, s.interpretFrame = .next t := by
  unfold State.interpretFrame
  split
  · exact ⟨_, rfl⟩
  · rename_i f hf
    obtain ⟨bytes, hb, _⟩ := (h f hf).readFrom
    simp only [hb]
    split <;> exact ⟨_, rfl⟩

/-- `RD`: the value is delivered or the read is a UsageFault; nothing else changes (R79). -/
theorem State.readRegister_cases (s : State) (reg : Byte) :
    (∃ v, s.readReg reg = .ok v ∧ s.readRegister reg = { s with result := .value v }) ∨
    (∃ c, s.readReg reg = .error c ∧ s.readRegister reg = { s with result := .raised (.usage c) }) := by
  unfold State.readRegister
  split
  · exact .inl ⟨_, by assumption, rfl⟩
  · exact .inr ⟨_, by assumption, rfl⟩

/-- `RD.PL`, when it answers a next state: only the outcome delivered changes (R80). -/
theorem State.readPayloadByte_next (s t : State) (i : Byte) (h : s.readPayloadByte i = .next t) :
    (s.frame = none ∧ t = { s with result := .raised (.usage .noValue) }) ∨
    (∃ f, s.frame = some f ∧ f.len.toNat ≤ i.toNat ∧ t = { s with result := .raised (.usage .badIndex) }) ∨
    (∃ f b, s.frame = some f ∧ i.toNat < f.len.toNat ∧ f.pl.read i.toNat = some b ∧
      t = { s with result := .value (b.setWidth 16) }) := by
  unfold State.readPayloadByte at h
  split at h
  · exact .inl ⟨by assumption, by simpa [State.raise_usage] using h.symm⟩
  · rename_i f hf
    split_ifs at h with h1
    · exact .inr (.inl ⟨f, hf, h1, by simpa [State.raise_usage] using h.symm⟩)
    · split at h
      · cases h
      · exact .inr (.inr ⟨f, _, hf, by omega, by assumption, by simpa [State.finish] using h.symm⟩)

/-- `RD.PL` answers a next state when `F_PL` holds the payload bytes (R20). -/
theorem State.readPayloadByte_completes (s : State) (i : Byte)
    (h : ∀ f, s.frame = some f → f.pl.holdsBelow f.len.toNat) : ∃ t, s.readPayloadByte i = .next t := by
  unfold State.readPayloadByte
  split
  · exact ⟨_, rfl⟩
  · rename_i f hf
    split_ifs with h1
    · exact ⟨_, rfl⟩
    · obtain ⟨b, hb⟩ := Option.isSome_iff_exists.1 (((h f hf).read_isSome i.toNat).2 (by omega))
      simp only [hb]
      exact ⟨_, rfl⟩

/-- Staging a payload of up to 255 bytes byte by byte (R61, R62). -/
theorem State.stageAll (s : State) (cmd : Byte) (addr : Half) (payload : List Byte) (h : payload.length ≤ 255) :
    payload.foldl State.stagePush (s.stageNew cmd addr) =
      { s with txCmd := cmd, txAddr := addr, txCnt := BitVec.ofNat 9 payload.length,
               txBuf := Memory.writeFrom [] 0 payload } := by
  induction payload using List.reverseRecOn with
  | nil => rfl
  | append_singleton bs b ih =>
    have hb : bs.length < 255 := by simpa using h
    rw [List.foldl_append, ih (by omega)]
    have hn : (BitVec.ofNat 9 bs.length).toNat = bs.length := by
      rw [BitVec.toNat_ofNat]; omega
    have hw := Memory.write_after bs [] 0 b
    rw [Nat.zero_add] at hw
    simp only [List.foldl_cons, List.foldl_nil, State.stagePush, Config.maxPayload, hn, if_pos hb, hw,
      List.length_append, List.length_singleton]
    rw [BitVec.ofNat_add]

/-- Once 256 bytes are pushed the overflow mark stands and the buffer keeps the first 255 (R62). -/
theorem State.stageOverflow (s : State) (cmd : Byte) (addr : Half) (payload : List Byte)
    (h : 255 < payload.length) :
    payload.foldl State.stagePush (s.stageNew cmd addr) =
      { s with txCmd := cmd, txAddr := addr, txCnt := 256#9,
               txBuf := Memory.writeFrom [] 0 (payload.take 255) } := by
  induction payload using List.reverseRecOn with
  | nil => simp at h
  | append_singleton bs b ih =>
    rw [List.foldl_append]
    by_cases hb : bs.length = 255
    · rw [State.stageAll s cmd addr bs (by omega)]
      simp [State.stagePush, Config.maxPayload, hb]
    · have hlt : 255 < bs.length := by simp at h; omega
      rw [ih hlt]
      have htake : (bs ++ [b]).take 255 = bs.take 255 := by
        rw [List.take_append_of_le_length (by omega)]
      simp [State.stagePush, Config.maxPayload, htake]

/-- Receiving up to 263 bytes into an emptied buffer (R71, R72). -/
theorem State.receiveAll (s : State) (bytes : List Byte) (h : bytes.length ≤ 263) :
    bytes.foldl State.receive s.clearReceived =
      { s with rxCnt := BitVec.ofNat 9 bytes.length, rxBuf := Memory.writeFrom [] 0 bytes } := by
  induction bytes using List.reverseRecOn with
  | nil => rfl
  | append_singleton bs b ih =>
    have hb : bs.length < 263 := by simpa using h
    rw [List.foldl_append, ih (by omega)]
    have hn : (BitVec.ofNat 9 bs.length).toNat = bs.length := by
      rw [BitVec.toNat_ofNat]; omega
    have hw := Memory.write_after bs [] 0 b
    rw [Nat.zero_add] at hw
    simp only [List.foldl_cons, List.foldl_nil, State.receive, Config.rxDepth, hn, if_pos hb, hw,
      List.length_append, List.length_singleton]
    rw [BitVec.ofNat_add]

/-- Once 264 bytes are received the overflow mark stands and the buffer keeps the first 263 (R72). -/
theorem State.receiveOverflow (s : State) (bytes : List Byte) (h : 263 < bytes.length) :
    bytes.foldl State.receive s.clearReceived =
      { s with rxCnt := 264#9, rxBuf := Memory.writeFrom [] 0 (bytes.take 263) } := by
  induction bytes using List.reverseRecOn with
  | nil => simp at h
  | append_singleton bs b ih =>
    rw [List.foldl_append]
    by_cases hb : bs.length = 263
    · rw [State.receiveAll s bs (by omega)]
      simp [State.receive, Config.rxDepth, hb]
    · have hlt : 263 < bs.length := by simp at h; omega
      rw [ih hlt]
      have htake : (bs ++ [b]).take 263 = bs.take 263 := by
        rw [List.take_append_of_le_length (by omega)]
      simp [State.receive, Config.rxDepth, htake]

/-- The pseudo-instruction `build` as one `TX.BUILD` over the staged operands (R48). -/
theorem State.buildRequest_eq (s : State) (cmd : Byte) (addr : Half) (payload : List Byte)
    (h : payload.length ≤ 255) :
    s.buildRequest cmd addr payload = State.buildFrame
      { s with txCmd := cmd, txAddr := addr, txCnt := BitVec.ofNat 9 payload.length,
               txBuf := Memory.writeFrom [] 0 payload } := by
  unfold State.buildRequest
  rw [State.stageAll s cmd addr payload h]

/-- The pseudo-instruction `build` with more than 255 bytes (R48, R62). -/
theorem State.buildRequest_overflow (s : State) (cmd : Byte) (addr : Half) (payload : List Byte)
    (h : 255 < payload.length) :
    s.buildRequest cmd addr payload = State.buildFrame
      { s with txCmd := cmd, txAddr := addr, txCnt := 256#9,
               txBuf := Memory.writeFrom [] 0 (payload.take 255) } := by
  unfold State.buildRequest
  rw [State.stageOverflow s cmd addr payload h]

/-- The pseudo-instruction `parse` always completes: the bytes are received and judged (R49). -/
theorem State.parseSequence_eq (s : State) (bytes : List Byte) (h : bytes.length ≤ 263) :
    s.parseSequence bytes = .next
      (State.judge { s with rxCnt := BitVec.ofNat 9 bytes.length, rxBuf := Memory.writeFrom [] 0 bytes }
        (parseBytes bytes)) := by
  unfold State.parseSequence
  rw [State.receiveAll s bytes h]
  have hn : (BitVec.ofNat 9 bytes.length).toNat = bytes.length := by
    rw [BitVec.toNat_ofNat]; omega
  simp [State.parseReceived, Config.rxDepth, hn, Nat.not_lt.2 h]

/-- The pseudo-instruction `parse` with more than 263 bytes is `D_LENGTH` (R49, R73). -/
theorem State.parseSequence_overflow (s : State) (bytes : List Byte) (h : 263 < bytes.length) :
    s.parseSequence bytes = .next
      (State.judge { s with rxCnt := 264#9, rxBuf := Memory.writeFrom [] 0 (bytes.take 263) }
        (.error .length)) := by
  unfold State.parseSequence
  rw [State.receiveOverflow s bytes h]
  simp [State.parseReceived, Config.rxDepth]

@[simp] theorem issues_nil : issues [] = [] := rfl

@[simp] theorem issues_cons (i : Instr) (prog : List Instr) :
    issues (i :: prog) = (encode i).issue :: issues prog := rfl

@[simp] theorem issues_append (p q : List Instr) : issues (p ++ q) = issues p ++ issues q :=
  List.map_append

@[simp] theorem issues_replicate (n : Nat) (i : Instr) :
    issues (List.replicate n i) = List.replicate n (encode i).issue :=
  List.map_replicate

/-- How many operations a call of `build` expands to: `TX.NEW`, `k` `TX.PUSH`, `TX.BUILD`, 7 + `k` `LINE.TAKE` (R48). -/
theorem buildExpansion_length (cmd : Byte) (addr : Half) (payload : List Byte) :
    (buildExpansion cmd addr payload).length = 9 + 2 * payload.length := by
  simp only [buildExpansion, List.cons_append, List.length_cons, List.length_append, List.length_map,
    List.length_replicate]
  omega

/-- The next issue, if there is one (R7). -/
theorem State.fetch_cases (s : State) :
    (s.port = [] ∧ s.fetch = none) ∨
    (∃ q rest, s.port = q :: rest ∧ s.fetch = some (q, { s with port := rest })) := by
  unfold State.fetch
  split
  · exact .inl ⟨by assumption, rfl⟩
  · exact .inr ⟨_, _, by assumption, rfl⟩

/-- One step, when it answers a next state: nothing was issued, or the next issue was run as the instruction it
spells, or it spells none (R7, R46). -/
theorem step_next (s t : State) (h : step s = .next t) :
    (s.port = [] ∧ t = s) ∨
    (∃ q rest i, s.port = q :: rest ∧ decodeIssue q = .ok i ∧ exec i { s with port := rest } = .next t) ∨
    (∃ q rest e, s.port = q :: rest ∧ decodeIssue q = .error e ∧
      State.runUndecoded { s with port := rest } q = .next t) := by
  unfold step at h
  rcases s.fetch_cases with ⟨hp, hf⟩ | ⟨q, rest, hp, hf⟩
  · rw [hf] at h
    exact .inl ⟨hp, by simpa using h.symm⟩
  · rw [hf] at h
    dsimp only at h
    cases hd : decodeIssue q with
    | ok i => rw [hd] at h; exact .inr (.inl ⟨q, rest, i, hp, hd, h⟩)
    | error e => rw [hd] at h; exact .inr (.inr ⟨q, rest, e, hp, hd, h⟩)

end Sys2Proof.Machine
end

