-- ==== Sys2Proof/Laws/PerInstr.lean ====
section
/-! SUPPORT. The family EncodesItsRow: every instruction's code matches its own row of spec/opcode_table.json
(R51): the masked bits of an operation word, the first two bytes of a frame. -/

namespace Sys2Proof.Laws

/-- A row's `match` value under its format's mask (R51). -/
inductive RowPattern where
  /-- Format `OPW`, mask 0xF0000000. -/
  | opw (value : BitVec 32)
  /-- Formats `REQ` and `RSP`, mask 0xFFFF over the first two bytes. -/
  | framePrefix (value : BitVec 16)

/-- The code's masked bits are the row's `match` value. -/
def RowPattern.Matches (p : RowPattern) (c : Code) : Prop :=
  match p, c with
  | .opw v, .word w => w &&& 0xF0000000#32 = v
  | .framePrefix v, .frame f => ∃ b0 b1 rest, f = b0 :: b1 :: rest ∧ b0 ++ b1 = v
  | .opw _, .frame _ => False
  | .framePrefix _, .word _ => False

/-- The `match` value of an instruction's row, copied from spec/opcode_table.json. -/
def rowPattern (i : Instr) : RowPattern :=
  match i with
  | .crcInit => .opw 0x10000000#32
  | .crcByte _ => .opw 0x20000000#32
  | .txNew _ _ => .opw 0x30000000#32
  | .txPush _ => .opw 0x40000000#32
  | .txBuild => .opw 0x50000000#32
  | .lineTake => .opw 0x60000000#32
  | .rxClr => .opw 0x70000000#32
  | .rxPush _ => .opw 0x80000000#32
  | .rxParse => .opw 0x90000000#32
  | .rxPayload => .opw 0xA0000000#32
  | .rd _ => .opw 0xB0000000#32
  | .rdPl _ => .opw 0xC0000000#32
  | .errClr => .opw 0xD0000000#32
  | .interfaceTestAliveReq _ _ => .framePrefix 0x2F30#16
  | .protocolGetVersionReq _ _ => .framePrefix 0x2F31#16
  | .interfaceGetNameReq _ _ => .framePrefix 0x2F32#16
  | .interfaceGetVersionReq _ _ => .framePrefix 0x2F33#16
  | .interfaceExitReq _ _ => .framePrefix 0x2F34#16
  | .deviceResetReq _ _ => .framePrefix 0x2F35#16
  | .deviceInitFlashReq _ _ => .framePrefix 0x2F37#16
  | .deviceEraseAllReq _ _ => .framePrefix 0x2F38#16
  | .devicePageEraseReq _ _ => .framePrefix 0x2F39#16
  | .deviceReadReq _ _ => .framePrefix 0x2F3A#16
  | .deviceWriteReq _ _ => .framePrefix 0x2F3B#16
  | .deviceC2ckLowReq _ _ => .framePrefix 0x2F3C#16
  | .deviceReadEepromReq _ _ => .framePrefix 0x2F3D#16
  | .deviceWriteEepromReq _ _ => .framePrefix 0x2F3E#16
  | .interfaceSetModeReq _ _ => .framePrefix 0x2F3F#16
  | .interfaceTestAliveRsp _ _ _ _ => .framePrefix 0x2E30#16
  | .protocolGetVersionRsp _ _ _ _ => .framePrefix 0x2E31#16
  | .interfaceGetNameRsp _ _ _ _ => .framePrefix 0x2E32#16
  | .interfaceGetVersionRsp _ _ _ _ => .framePrefix 0x2E33#16
  | .interfaceExitRsp _ _ _ _ => .framePrefix 0x2E34#16
  | .deviceResetRsp _ _ _ _ => .framePrefix 0x2E35#16
  | .deviceInitFlashRsp _ _ _ _ => .framePrefix 0x2E37#16
  | .deviceEraseAllRsp _ _ _ _ => .framePrefix 0x2E38#16
  | .devicePageEraseRsp _ _ _ _ => .framePrefix 0x2E39#16
  | .deviceReadRsp _ _ _ _ => .framePrefix 0x2E3A#16
  | .deviceWriteRsp _ _ _ _ => .framePrefix 0x2E3B#16
  | .deviceC2ckLowRsp _ _ _ _ => .framePrefix 0x2E3C#16
  | .deviceReadEepromRsp _ _ _ _ => .framePrefix 0x2E3D#16
  | .deviceWriteEepromRsp _ _ _ _ => .framePrefix 0x2E3E#16
  | .interfaceSetModeRsp _ _ _ _ => .framePrefix 0x2E3F#16

/-- An operation word keeps `OP`, at bits 31:28, under the row mask (R45, R51). -/
theorem opWord_masked (op : BitVec 4) (a : Byte) (b : Half) :
    opWord op a b &&& 0xF0000000#32 = op.setWidth 32 <<< 28 := by
  apply BitVec.eq_of_getLsbD_eq
  intro i hi
  have hm : (0xF0000000#32).getLsbD i = decide (28 ≤ i) := by
    interval_cases i <;> decide
  rw [opWord, BitVec.getLsbD_and, BitVec.getLsbD_append, BitVec.getLsbD_append, BitVec.getLsbD_append,
    BitVec.getLsbD_shiftLeft, BitVec.getLsbD_setWidth, hm]
  by_cases h : i < 28
  · simp [h, Nat.not_le.2 h]
  · have h1 : ¬ i < 16 := by omega
    have h2 : ¬ i - 16 < 8 := by omega
    have h3 : ¬ i - 16 - 8 < 4 := by omega
    have h4 : i - 16 - 8 - 4 = i - 28 := by omega
    have h5 : 28 ≤ i := by omega
    have h6 : i - 28 < 32 := by omega
    simp [h, hi, h1, h2, h3, h4, h5, h6]

end Sys2Proof.Laws

namespace Sys2Proof.Laws.EncodesItsRow

/-- The code of the instruction matches its row. -/
def Statement (i : Instr) : Prop :=
  (rowPattern i).Matches (encode i)

theorem crcInit : Statement .crcInit :=
  opWord_masked _ _ _
theorem crcByte (b : Byte) : Statement (.crcByte b) :=
  opWord_masked _ _ _
theorem txNew (cmd : Byte) (addr : Half) : Statement (.txNew cmd addr) :=
  opWord_masked _ _ _
theorem txPush (b : Byte) : Statement (.txPush b) :=
  opWord_masked _ _ _
theorem txBuild : Statement .txBuild :=
  opWord_masked _ _ _
theorem lineTake : Statement .lineTake :=
  opWord_masked _ _ _
theorem rxClr : Statement .rxClr :=
  opWord_masked _ _ _
theorem rxPush (b : Byte) : Statement (.rxPush b) :=
  opWord_masked _ _ _
theorem rxParse : Statement .rxParse :=
  opWord_masked _ _ _
theorem rxPayload : Statement .rxPayload :=
  opWord_masked _ _ _
theorem rd (reg : Byte) : Statement (.rd reg) :=
  opWord_masked _ _ _
theorem rdPl (k : Byte) : Statement (.rdPl k) :=
  opWord_masked _ _ _
theorem errClr : Statement .errClr :=
  opWord_masked _ _ _
theorem interfaceTestAliveReq (addr : Half) (payload : List Byte) : Statement (.interfaceTestAliveReq addr payload) :=
  ⟨_, _, _, rfl, rfl⟩
theorem protocolGetVersionReq (addr : Half) (payload : List Byte) : Statement (.protocolGetVersionReq addr payload) :=
  ⟨_, _, _, rfl, rfl⟩
theorem interfaceGetNameReq (addr : Half) (payload : List Byte) : Statement (.interfaceGetNameReq addr payload) :=
  ⟨_, _, _, rfl, rfl⟩
theorem interfaceGetVersionReq (addr : Half) (payload : List Byte) : Statement (.interfaceGetVersionReq addr payload) :=
  ⟨_, _, _, rfl, rfl⟩
theorem interfaceExitReq (addr : Half) (payload : List Byte) : Statement (.interfaceExitReq addr payload) :=
  ⟨_, _, _, rfl, rfl⟩
theorem deviceResetReq (addr : Half) (payload : List Byte) : Statement (.deviceResetReq addr payload) :=
  ⟨_, _, _, rfl, rfl⟩
theorem deviceInitFlashReq (addr : Half) (payload : List Byte) : Statement (.deviceInitFlashReq addr payload) :=
  ⟨_, _, _, rfl, rfl⟩
theorem deviceEraseAllReq (addr : Half) (payload : List Byte) : Statement (.deviceEraseAllReq addr payload) :=
  ⟨_, _, _, rfl, rfl⟩
theorem devicePageEraseReq (addr : Half) (payload : List Byte) : Statement (.devicePageEraseReq addr payload) :=
  ⟨_, _, _, rfl, rfl⟩
theorem deviceReadReq (addr : Half) (payload : List Byte) : Statement (.deviceReadReq addr payload) :=
  ⟨_, _, _, rfl, rfl⟩
theorem deviceWriteReq (addr : Half) (payload : List Byte) : Statement (.deviceWriteReq addr payload) :=
  ⟨_, _, _, rfl, rfl⟩
theorem deviceC2ckLowReq (addr : Half) (payload : List Byte) : Statement (.deviceC2ckLowReq addr payload) :=
  ⟨_, _, _, rfl, rfl⟩
theorem deviceReadEepromReq (addr : Half) (payload : List Byte) : Statement (.deviceReadEepromReq addr payload) :=
  ⟨_, _, _, rfl, rfl⟩
theorem deviceWriteEepromReq (addr : Half) (payload : List Byte) : Statement (.deviceWriteEepromReq addr payload) :=
  ⟨_, _, _, rfl, rfl⟩
theorem interfaceSetModeReq (addr : Half) (payload : List Byte) : Statement (.interfaceSetModeReq addr payload) :=
  ⟨_, _, _, rfl, rfl⟩
theorem interfaceTestAliveRsp (addr : Half) (payload : List Byte) (ack : Byte) (crc : Half) :
    Statement (.interfaceTestAliveRsp addr payload ack crc) :=
  ⟨_, _, _, rfl, rfl⟩
theorem protocolGetVersionRsp (addr : Half) (payload : List Byte) (ack : Byte) (crc : Half) :
    Statement (.protocolGetVersionRsp addr payload ack crc) :=
  ⟨_, _, _, rfl, rfl⟩
theorem interfaceGetNameRsp (addr : Half) (payload : List Byte) (ack : Byte) (crc : Half) :
    Statement (.interfaceGetNameRsp addr payload ack crc) :=
  ⟨_, _, _, rfl, rfl⟩
theorem interfaceGetVersionRsp (addr : Half) (payload : List Byte) (ack : Byte) (crc : Half) :
    Statement (.interfaceGetVersionRsp addr payload ack crc) :=
  ⟨_, _, _, rfl, rfl⟩
theorem interfaceExitRsp (addr : Half) (payload : List Byte) (ack : Byte) (crc : Half) :
    Statement (.interfaceExitRsp addr payload ack crc) :=
  ⟨_, _, _, rfl, rfl⟩
theorem deviceResetRsp (addr : Half) (payload : List Byte) (ack : Byte) (crc : Half) :
    Statement (.deviceResetRsp addr payload ack crc) :=
  ⟨_, _, _, rfl, rfl⟩
theorem deviceInitFlashRsp (addr : Half) (payload : List Byte) (ack : Byte) (crc : Half) :
    Statement (.deviceInitFlashRsp addr payload ack crc) :=
  ⟨_, _, _, rfl, rfl⟩
theorem deviceEraseAllRsp (addr : Half) (payload : List Byte) (ack : Byte) (crc : Half) :
    Statement (.deviceEraseAllRsp addr payload ack crc) :=
  ⟨_, _, _, rfl, rfl⟩
theorem devicePageEraseRsp (addr : Half) (payload : List Byte) (ack : Byte) (crc : Half) :
    Statement (.devicePageEraseRsp addr payload ack crc) :=
  ⟨_, _, _, rfl, rfl⟩
theorem deviceReadRsp (addr : Half) (payload : List Byte) (ack : Byte) (crc : Half) :
    Statement (.deviceReadRsp addr payload ack crc) :=
  ⟨_, _, _, rfl, rfl⟩
theorem deviceWriteRsp (addr : Half) (payload : List Byte) (ack : Byte) (crc : Half) :
    Statement (.deviceWriteRsp addr payload ack crc) :=
  ⟨_, _, _, rfl, rfl⟩
theorem deviceC2ckLowRsp (addr : Half) (payload : List Byte) (ack : Byte) (crc : Half) :
    Statement (.deviceC2ckLowRsp addr payload ack crc) :=
  ⟨_, _, _, rfl, rfl⟩
theorem deviceReadEepromRsp (addr : Half) (payload : List Byte) (ack : Byte) (crc : Half) :
    Statement (.deviceReadEepromRsp addr payload ack crc) :=
  ⟨_, _, _, rfl, rfl⟩
theorem deviceWriteEepromRsp (addr : Half) (payload : List Byte) (ack : Byte) (crc : Half) :
    Statement (.deviceWriteEepromRsp addr payload ack crc) :=
  ⟨_, _, _, rfl, rfl⟩
theorem interfaceSetModeRsp (addr : Half) (payload : List Byte) (ack : Byte) (crc : Half) :
    Statement (.interfaceSetModeRsp addr payload ack crc) :=
  ⟨_, _, _, rfl, rfl⟩

end Sys2Proof.Laws.EncodesItsRow
end

