-- ==== Sys2Proof/Tests/Slice0.lean ====
section
/-! SUPPORT. Tests on values written out from spec/ (95_test_vectors.md and the examples of 44_commands.md, unless a
comment says otherwise), and for every statement with hypotheses a witness that meets them. -/

set_option maxRecDepth 8000

namespace Sys2Proof.Tests

open Sys2Proof Sys2Proof.Machine Sys2Proof.Claims

/-- The state an instruction leaves, if it answers a next state. -/
def after (i : Instr) (s : State) : Option State :=
  match exec i s with
  | .next t => some t
  | .fault _ => none
  | .refused _ => none

/-- The state a step leaves, if it answers a next state. -/
def stepped (s : State) : Option State :=
  match step s with
  | .next t => some t
  | .fault _ => none
  | .refused _ => none

/-- The instruction a code spells, if any. -/
def decoded (c : Code) : Option Instr :=
  match decode c with
  | .ok i => some i
  | .error _ => none

/-- The cause by which a byte sequence is refused, if it is. -/
def refusedBy (r : List Byte) : Option DecodingCause :=
  match parseBytes r with
  | .ok _ => none
  | .error c => some c

/-! ## Decoding: operation words (R45) -/

theorem test_decode_crcInit : decoded (.word 0x10000000#32) = some (.crcInit) := by decide

theorem test_decode_crcByte : decoded (.word 0x202F0000#32) = some (.crcByte 0x2F#8) := by decide

theorem test_decode_txNew : decoded (.word 0x303AAABB#32) = some (.txNew 0x3A#8 0xAABB#16) := by decide

theorem test_decode_txPush : decoded (.word 0x400F0000#32) = some (.txPush 0x0F#8) := by decide

theorem test_decode_txBuild : decoded (.word 0x50000000#32) = some (.txBuild) := by decide

theorem test_decode_lineTake : decoded (.word 0x60000000#32) = some (.lineTake) := by decide

theorem test_decode_rxClr : decoded (.word 0x70000000#32) = some (.rxClr) := by decide

theorem test_decode_rxPush : decoded (.word 0x802E0000#32) = some (.rxPush 0x2E#8) := by decide

theorem test_decode_rxParse : decoded (.word 0x90000000#32) = some (.rxParse) := by decide

theorem test_decode_rxPayload : decoded (.word 0xA0000000#32) = some (.rxPayload) := by decide

theorem test_decode_rd : decoded (.word 0xB0120000#32) = some (.rd 0x12#8) := by decide

theorem test_decode_rdPl : decoded (.word 0xC0030000#32) = some (.rdPl 0x03#8) := by decide

theorem test_decode_errClr : decoded (.word 0xD0000000#32) = some (.errClr) := by decide

/-- Bits 27:24 and the unused field `B` are ignored (R45). -/
theorem test_decode_ignoresUnused : decoded (.word 0x2FFFFFFF#32) = some (.crcByte 0xFF#8) := by decide

theorem test_decode_illegal :
    decoded (.word 0x00000000#32) = none ∧ decoded (.word 0xE0000000#32) = none ∧
      decoded (.word 0xF0000000#32) = none := by decide

/-! ## Decoding: the default requests and the plain ok responses (R85 to R99) -/

theorem test_decode_interfaceTestAliveReq :
    decoded (.frame [0x2F#8, 0x30#8, 0x00#8, 0x00#8, 0x01#8, 0x00#8, 0xCF#8, 0xD4#8]) =
      some (.interfaceTestAliveReq 0x0000#16 [0x00#8]) := by decide
theorem test_decode_interfaceTestAliveRsp :
    decoded (.frame [0x2E#8, 0x30#8, 0x00#8, 0x00#8, 0x01#8, 0x00#8, 0x00#8, 0x44#8, 0xC2#8]) =
      some (.interfaceTestAliveRsp 0x0000#16 [0x00#8] 0x00#8 0x44C2#16) := by decide

theorem test_decode_protocolGetVersionReq :
    decoded (.frame [0x2F#8, 0x31#8, 0x00#8, 0x00#8, 0x01#8, 0x00#8, 0x65#8, 0x85#8]) =
      some (.protocolGetVersionReq 0x0000#16 [0x00#8]) := by decide
theorem test_decode_protocolGetVersionRsp :
    decoded (.frame [0x2E#8, 0x31#8, 0x00#8, 0x00#8, 0x01#8, 0x00#8, 0x00#8, 0x01#8, 0x62#8]) =
      some (.protocolGetVersionRsp 0x0000#16 [0x00#8] 0x00#8 0x0162#16) := by decide

theorem test_decode_interfaceGetNameReq :
    decoded (.frame [0x2F#8, 0x32#8, 0x00#8, 0x00#8, 0x01#8, 0x00#8, 0x8B#8, 0x57#8]) =
      some (.interfaceGetNameReq 0x0000#16 [0x00#8]) := by decide
theorem test_decode_interfaceGetNameRsp :
    decoded (.frame [0x2E#8, 0x32#8, 0x00#8, 0x00#8, 0x01#8, 0x00#8, 0x00#8, 0xCF#8, 0x82#8]) =
      some (.interfaceGetNameRsp 0x0000#16 [0x00#8] 0x00#8 0xCF82#16) := by decide

theorem test_decode_interfaceGetVersionReq :
    decoded (.frame [0x2F#8, 0x33#8, 0x00#8, 0x00#8, 0x01#8, 0x00#8, 0x21#8, 0x06#8]) =
      some (.interfaceGetVersionReq 0x0000#16 [0x00#8]) := by decide
theorem test_decode_interfaceGetVersionRsp :
    decoded (.frame [0x2E#8, 0x33#8, 0x00#8, 0x00#8, 0x01#8, 0x00#8, 0x00#8, 0x8A#8, 0x22#8]) =
      some (.interfaceGetVersionRsp 0x0000#16 [0x00#8] 0x00#8 0x8A22#16) := by decide

theorem test_decode_interfaceExitReq :
    decoded (.frame [0x2F#8, 0x34#8, 0x00#8, 0x00#8, 0x01#8, 0x00#8, 0x46#8, 0xD2#8]) =
      some (.interfaceExitReq 0x0000#16 [0x00#8]) := by decide
theorem test_decode_interfaceExitRsp :
    decoded (.frame [0x2E#8, 0x34#8, 0x00#8, 0x00#8, 0x01#8, 0x00#8, 0x00#8, 0x42#8, 0x63#8]) =
      some (.interfaceExitRsp 0x0000#16 [0x00#8] 0x00#8 0x4263#16) := by decide

theorem test_decode_deviceResetReq :
    decoded (.frame [0x2F#8, 0x35#8, 0x00#8, 0x00#8, 0x01#8, 0x00#8, 0xEC#8, 0x83#8]) =
      some (.deviceResetReq 0x0000#16 [0x00#8]) := by decide
theorem test_decode_deviceResetRsp :
    decoded (.frame [0x2E#8, 0x35#8, 0x00#8, 0x00#8, 0x01#8, 0x00#8, 0x00#8, 0x07#8, 0xC3#8]) =
      some (.deviceResetRsp 0x0000#16 [0x00#8] 0x00#8 0x07C3#16) := by decide

theorem test_decode_deviceInitFlashReq :
    decoded (.frame [0x2F#8, 0x37#8, 0x00#8, 0x00#8, 0x01#8, 0x00#8, 0xA8#8, 0x00#8]) =
      some (.deviceInitFlashReq 0x0000#16 [0x00#8]) := by decide
theorem test_decode_deviceInitFlashRsp :
    decoded (.frame [0x2E#8, 0x37#8, 0x00#8, 0x00#8, 0x01#8, 0x00#8, 0x00#8, 0x8C#8, 0x83#8]) =
      some (.deviceInitFlashRsp 0x0000#16 [0x00#8] 0x00#8 0x8C83#16) := by decide

theorem test_decode_deviceEraseAllReq :
    decoded (.frame [0x2F#8, 0x38#8, 0x00#8, 0x00#8, 0x01#8, 0x00#8, 0xCD#8, 0xF9#8]) =
      some (.deviceEraseAllReq 0x0000#16 [0x00#8]) := by decide
theorem test_decode_deviceEraseAllRsp :
    decoded (.frame [0x2E#8, 0x38#8, 0x00#8, 0x00#8, 0x01#8, 0x00#8, 0x00#8, 0x49#8, 0x80#8]) =
      some (.deviceEraseAllRsp 0x0000#16 [0x00#8] 0x00#8 0x4980#16) := by decide

theorem test_decode_devicePageEraseReq :
    decoded (.frame [0x2F#8, 0x39#8, 0x00#8, 0x00#8, 0x01#8, 0x00#8, 0x67#8, 0xA8#8]) =
      some (.devicePageEraseReq 0x0000#16 [0x00#8]) := by decide
theorem test_decode_devicePageEraseRsp :
    decoded (.frame [0x2E#8, 0x39#8, 0x00#8, 0x00#8, 0x01#8, 0x00#8, 0x00#8, 0x0C#8, 0x20#8]) =
      some (.devicePageEraseRsp 0x0000#16 [0x00#8] 0x00#8 0x0C20#16) := by decide

theorem test_decode_deviceReadReq :
    decoded (.frame [0x2F#8, 0x3A#8, 0x00#8, 0x00#8, 0x01#8, 0x00#8, 0x89#8, 0x7A#8]) =
      some (.deviceReadReq 0x0000#16 [0x00#8]) := by decide
theorem test_decode_deviceReadRsp :
    decoded (.frame [0x2E#8, 0x3A#8, 0x00#8, 0x00#8, 0x01#8, 0x00#8, 0x00#8, 0xC2#8, 0xC0#8]) =
      some (.deviceReadRsp 0x0000#16 [0x00#8] 0x00#8 0xC2C0#16) := by decide

theorem test_decode_deviceWriteReq :
    decoded (.frame [0x2F#8, 0x3B#8, 0x00#8, 0x00#8, 0x01#8, 0x00#8, 0x23#8, 0x2B#8]) =
      some (.deviceWriteReq 0x0000#16 [0x00#8]) := by decide
theorem test_decode_deviceWriteRsp :
    decoded (.frame [0x2E#8, 0x3B#8, 0x00#8, 0x00#8, 0x01#8, 0x00#8, 0x00#8, 0x87#8, 0x60#8]) =
      some (.deviceWriteRsp 0x0000#16 [0x00#8] 0x00#8 0x8760#16) := by decide

theorem test_decode_deviceC2ckLowReq :
    decoded (.frame [0x2F#8, 0x3C#8, 0x00#8, 0x00#8, 0x01#8, 0x00#8, 0x44#8, 0xFF#8]) =
      some (.deviceC2ckLowReq 0x0000#16 [0x00#8]) := by decide
theorem test_decode_deviceC2ckLowRsp :
    decoded (.frame [0x2E#8, 0x3C#8, 0x00#8, 0x00#8, 0x01#8, 0x00#8, 0x00#8, 0x4F#8, 0x21#8]) =
      some (.deviceC2ckLowRsp 0x0000#16 [0x00#8] 0x00#8 0x4F21#16) := by decide

theorem test_decode_deviceReadEepromReq :
    decoded (.frame [0x2F#8, 0x3D#8, 0x00#8, 0x00#8, 0x01#8, 0x00#8, 0xEE#8, 0xAE#8]) =
      some (.deviceReadEepromReq 0x0000#16 [0x00#8]) := by decide
theorem test_decode_deviceReadEepromRsp :
    decoded (.frame [0x2E#8, 0x3D#8, 0x00#8, 0x00#8, 0x01#8, 0x00#8, 0x00#8, 0x0A#8, 0x81#8]) =
      some (.deviceReadEepromRsp 0x0000#16 [0x00#8] 0x00#8 0x0A81#16) := by decide

theorem test_decode_deviceWriteEepromReq :
    decoded (.frame [0x2F#8, 0x3E#8, 0x00#8, 0x00#8, 0x01#8, 0x00#8, 0x00#8, 0x7C#8]) =
      some (.deviceWriteEepromReq 0x0000#16 [0x00#8]) := by decide
theorem test_decode_deviceWriteEepromRsp :
    decoded (.frame [0x2E#8, 0x3E#8, 0x00#8, 0x00#8, 0x01#8, 0x00#8, 0x00#8, 0xC4#8, 0x61#8]) =
      some (.deviceWriteEepromRsp 0x0000#16 [0x00#8] 0x00#8 0xC461#16) := by decide

theorem test_decode_interfaceSetModeReq :
    decoded (.frame [0x2F#8, 0x3F#8, 0x00#8, 0x00#8, 0x01#8, 0x00#8, 0xAA#8, 0x2D#8]) =
      some (.interfaceSetModeReq 0x0000#16 [0x00#8]) := by decide
theorem test_decode_interfaceSetModeRsp :
    decoded (.frame [0x2E#8, 0x3F#8, 0x00#8, 0x00#8, 0x01#8, 0x00#8, 0x00#8, 0x81#8, 0xC1#8]) =
      some (.interfaceSetModeRsp 0x0000#16 [0x00#8] 0x00#8 0x81C1#16) := by decide

/-- Opcode 0x36 spells no row (R44), nor does a frame one byte short or long (R38). -/
theorem test_decode_noRow :
    decoded (.frame [0x2F#8, 0x36#8, 0x00#8, 0x00#8, 0x00#8, 0x00#8, 0x00#8]) = none ∧
      decoded (.frame [0x2E#8, 0x30#8, 0x00#8, 0x00#8, 0x00#8, 0x00#8, 0x00#8]) = none ∧
      decoded (.frame [0x2F#8, 0x30#8, 0x00#8, 0x00#8, 0x00#8, 0x00#8, 0x00#8, 0x00#8]) = none := by decide

/-! ## Encoding -/

/-- The fifteen default requests, CRC computed. -/
theorem test_encode_requests :
    (requestRows 0x0000#16 [0x00#8]).map (fun row => encode row.2) = [
      .frame [0x2F#8, 0x30#8, 0x00#8, 0x00#8, 0x01#8, 0x00#8, 0xCF#8, 0xD4#8],
      .frame [0x2F#8, 0x31#8, 0x00#8, 0x00#8, 0x01#8, 0x00#8, 0x65#8, 0x85#8],
      .frame [0x2F#8, 0x32#8, 0x00#8, 0x00#8, 0x01#8, 0x00#8, 0x8B#8, 0x57#8],
      .frame [0x2F#8, 0x33#8, 0x00#8, 0x00#8, 0x01#8, 0x00#8, 0x21#8, 0x06#8],
      .frame [0x2F#8, 0x34#8, 0x00#8, 0x00#8, 0x01#8, 0x00#8, 0x46#8, 0xD2#8],
      .frame [0x2F#8, 0x35#8, 0x00#8, 0x00#8, 0x01#8, 0x00#8, 0xEC#8, 0x83#8],
      .frame [0x2F#8, 0x37#8, 0x00#8, 0x00#8, 0x01#8, 0x00#8, 0xA8#8, 0x00#8],
      .frame [0x2F#8, 0x38#8, 0x00#8, 0x00#8, 0x01#8, 0x00#8, 0xCD#8, 0xF9#8],
      .frame [0x2F#8, 0x39#8, 0x00#8, 0x00#8, 0x01#8, 0x00#8, 0x67#8, 0xA8#8],
      .frame [0x2F#8, 0x3A#8, 0x00#8, 0x00#8, 0x01#8, 0x00#8, 0x89#8, 0x7A#8],
      .frame [0x2F#8, 0x3B#8, 0x00#8, 0x00#8, 0x01#8, 0x00#8, 0x23#8, 0x2B#8],
      .frame [0x2F#8, 0x3C#8, 0x00#8, 0x00#8, 0x01#8, 0x00#8, 0x44#8, 0xFF#8],
      .frame [0x2F#8, 0x3D#8, 0x00#8, 0x00#8, 0x01#8, 0x00#8, 0xEE#8, 0xAE#8],
      .frame [0x2F#8, 0x3E#8, 0x00#8, 0x00#8, 0x01#8, 0x00#8, 0x00#8, 0x7C#8],
      .frame [0x2F#8, 0x3F#8, 0x00#8, 0x00#8, 0x01#8, 0x00#8, 0xAA#8, 0x2D#8]] := by decide

/-- The fifteen plain ok responses: the CRC of their bodies is the one the spec prints. -/
theorem test_encode_responses :
    (responseRows 0x0000#16 [0x00#8] 0x00#8 0x0000#16).map
        (fun row => crc16 (responseBytes row.1 0x0000#16 [0x00#8] 0x00#8)) =
      [0x44C2#16, 0x0162#16, 0xCF82#16, 0x8A22#16, 0x4263#16, 0x07C3#16, 0x8C83#16, 0x4980#16, 0x0C20#16, 0xC2C0#16, 0x8760#16, 0x4F21#16, 0x0A81#16, 0xC461#16, 0x81C1#16] := by decide

/-! ## The table's bits and the host's word -/

theorem test_table_word : decodeTableWord 32 0xB0000000 = some (.rd 0x00#8) := by decide
theorem test_table_request : decodeTableWord 16 0x2F37 = some (.deviceInitFlashReq 0x0000#16 []) := by decide
theorem test_table_response :
    decodeTableWord 16 0x2E37 = some (.deviceInitFlashRsp 0x0000#16 [] 0x00#8 0x0000#16) := by decide
theorem test_table_none : decodeTableWord 16 0x2F36 = none ∧ decodeTableWord 32 0 = none := by decide

/-- The host's word runs as the next step: V2's shortest request frame, `2f3000000041a4`. -/
theorem test_fetchWord_request :
    (stepped (State.reset.withFetchWord 16 0x2F30)).map (fun t => t.txQ) =
      some [0x2F#8, 0x30#8, 0x00#8, 0x00#8, 0x00#8, 0x41#8, 0xA4#8] := by decide

/-- The host's word, a response frame whose CRC field is 0 and not 0xB945 (V3): `D_CRC`. -/
theorem test_fetchWord_response :
    (stepped (State.reset.withFetchWord 16 0x2E30)).map (fun t => t.err) = some 0x26#6 := by decide

/-! ## Well-formedness -/

theorem test_wf_request_255 : (Instr.deviceWriteReq 0x1A00#16 (List.replicate 255 0xFF#8)).wf = true := by decide
theorem test_wf_request_256 : (Instr.deviceWriteReq 0x1A00#16 (List.replicate 256 0xFF#8)).wf = false := by decide
theorem test_wf_response_256 :
    (Instr.deviceReadRsp 0x1A00#16 (List.replicate 256 0xFF#8) 0x00#8 0x0000#16).wf = false := by decide
theorem test_wf_word : (Instr.rd 0xFF#8).wf = true := by decide

/-! ## The pure functions (V1 to V4) -/

theorem test_crc_check : crc16 [0x31#8, 0x32#8, 0x33#8, 0x34#8, 0x35#8, 0x36#8, 0x37#8, 0x38#8, 0x39#8] = 0x31C3#16 := by
  decide
theorem test_crc_ones : crc16 [0xFF#8, 0xFF#8] = 0x1D0F#16 ∧ crc16 [0x01#8, 0x00#8] = 0x3331#16 ∧ crc16 [] = 0x0000#16 := by
  decide
theorem test_crcStep :
    crcStep 0x1234#16 0x56#8 = 0x3C40#16 ∧ crcStep 0xFFFF#16 0x00#8 = 0xE1F0#16 ∧ crcStep 0x0000#16 0x80#8 = 0x9188#16 := by
  decide

theorem test_parse_refused :
    refusedBy [] = some .empty ∧
    refusedBy [0x2E#8, 0x34#8, 0x00#8, 0x00#8] = some .length ∧
    refusedBy [0x2F#8, 0x38#8, 0x00#8, 0x00#8, 0x01#8, 0x00#8, 0xCD#8, 0xF9#8] = some .length ∧
    refusedBy [0x2E#8, 0x36#8, 0x00#8, 0x00#8, 0x01#8, 0x00#8, 0x00#8, 0xC9#8, 0x23#8] = some .opcode ∧
    refusedBy [0x2E#8, 0x34#8, 0x00#8, 0x00#8, 0x01#8, 0x00#8, 0x01#8, 0x52#8, 0x42#8] = some .ack ∧
    refusedBy [0x2E#8, 0x34#8, 0x00#8, 0x00#8, 0x01#8, 0x00#8, 0x00#8, 0x42#8, 0x64#8] = some .crc := by decide

/-- R105's own example: wrong in every way, and `D_OPCODE` is reported. -/
theorem test_parse_priority :
    refusedBy [0x2F#8, 0x36#8, 0x00#8, 0x00#8, 0x01#8, 0x00#8, 0xFF#8, 0x00#8, 0x00#8] = some .opcode := by decide

/-! ## One step of each operation -/

/-- The frame registers after S4's frame. -/
def identFrame : FrameRegs where
  start := 0x2E#8
  cmd := 0x37#8
  addr := 0x0000#16
  len := 4#8
  pl := [(0, 0xF3#8), (1, 0x30#8), (2, 0xAA#8), (3, 0x01#8)]
  ack := 0x00#8
  crc := 0xF7F0#16

/-- The payload registers after S4's frame. -/
def identRegs : IdentRegs := ⟨0xF3#8, 0x30#8, 0xAA#8, 1#2, 0#1⟩

/-- The frame registers after a `device_write` response with ack 0x02 (V3). -/
def writeFrame : FrameRegs where
  start := 0x2E#8
  cmd := 0x3B#8
  addr := 0x1A00#16
  len := 1#8
  pl := [(0, 0x00#8)]
  ack := 0x02#8
  crc := 0xE5D6#16

/-- S1 staged. -/
def staged : State :=
  { State.reset with txCmd := 0x38#8, txCnt := 1#9, txBuf := [(0, 0x00#8)] }

/-- A frame held, after `RX.PARSE`. -/
def holding (f : FrameRegs) : State :=
  { State.reset with frame := some f }

/-- S4 decoded and interpreted. -/
def interpreted : State :=
  { holding identFrame with interp := .ident identRegs }

/-- Bytes received. -/
def received (r : List Byte) : State :=
  { State.reset with rxCnt := BitVec.ofNat 9 r.length, rxBuf := Memory.writeFrom [] 0 r }

theorem test_crcInit : (after .crcInit { State.reset with crc := 0xCDF9#16 }).map (fun t => t.crc) = some 0x0000#16 := by
  decide
theorem test_crcByte : (after (.crcByte 0x38#8) { State.reset with crc := 0xD58D#16 }).map (fun t => t.crc) =
    some 0xA183#16 := by decide
theorem test_txNew : (after (.txNew 0x3A#8 0xAABB#16) staged).map (fun t => (t.txCmd, t.txAddr, t.txCnt)) =
    some (0x3A#8, 0xAABB#16, 0#9) := by decide
theorem test_txPush : (after (.txPush 0x0F#8) State.reset).map (fun t => (t.txBuf, t.txCnt)) =
    some ([(0, 0x0F#8)], 1#9) := by decide
theorem test_txPush_256th : (after (.txPush 0xFF#8) { State.reset with txCnt := 255#9 }).map
    (fun t => (t.txBuf, t.txCnt, t.statusWord)) = some ([], 256#9, 0x04#8) := by decide
theorem test_txBuild : (after .txBuild staged).map (fun t => t.txQ) =
    some [0x2F#8, 0x38#8, 0x00#8, 0x00#8, 0x01#8, 0x00#8, 0xCD#8, 0xF9#8] := by decide
theorem test_txBuild_reset : (after .txBuild State.reset).map (fun t => (t.err, t.txQ)) = some (0x11#6, []) := by decide
theorem test_lineTake : (after .lineTake { State.reset with txQ := [0xCD#8, 0xF9#8] }).map (fun t => (t.txQ, t.result)) =
    some ([0xF9#8], .byte 0xCD#8) := by decide
theorem test_lineTake_empty : (after .lineTake State.reset).map (fun t => t.result) = some (.held .empty) := by decide
theorem test_rxClr : (after .rxClr (received [0x2E#8])).map (fun t => (t.rxCnt, t.rxBuf)) = some (0#9, []) := by decide
theorem test_rxPush : (after (.rxPush 0x2E#8) State.reset).map (fun t => (t.rxCnt, t.rxBuf)) =
    some (1#9, [(0, 0x2E#8)]) := by decide
theorem test_rxPush_264th : (after (.rxPush 0x2E#8) { State.reset with rxCnt := 263#9 }).map
    (fun t => (t.rxCnt, t.rxBuf, t.statusWord)) = some (264#9, [], 0x08#8) := by decide
theorem test_rxParse : (after .rxParse (received [0x2E#8, 0x37#8, 0x00#8, 0x00#8, 0x04#8, 0xF3#8, 0x30#8, 0xAA#8,
    0x01#8, 0x00#8, 0xF7#8, 0xF0#8])).map (fun t => t.frame) = some (some identFrame) := by decide
theorem test_rxParse_crc : (after .rxParse { received [0x2E#8, 0x34#8, 0x00#8, 0x00#8, 0x01#8, 0x00#8, 0x00#8, 0x42#8,
    0x64#8] with frame := some identFrame }).map (fun t => (t.frame, t.err)) = some (none, 0x26#6) := by decide
theorem test_rxPayload : (after .rxPayload (holding identFrame)).map (fun t => (t.interp, t.statusWord)) =
    some (.ident identRegs, 0x41#8) := by decide
/-- Mode 4 is unknown (R43), the frame stays (R75). -/
theorem test_rxPayload_mode : (after .rxPayload
    (holding { identFrame with pl := [(0, 0xF3#8), (1, 0x30#8), (2, 0xAA#8), (3, 0x04#8)] })).map
      (fun t => (t.err, t.frame.isSome)) = some (0x27#6, true) := by decide
theorem test_rd_status : (after (.rd 0x01#8) (holding writeFrame)).map (fun t => t.result) = some (.value 0x0003#16) := by
  decide
theorem test_rd_noValue : (after (.rd 0x0E#8) (holding identFrame)).map (fun t => t.result) =
    some (.raised (.usage .noValue)) := by decide
theorem test_rdPl : (after (.rdPl 0x00#8) (holding identFrame)).map (fun t => t.result) = some (.value 0x00F3#16) := by
  decide
theorem test_rdPl_index : (after (.rdPl 0x04#8) (holding identFrame)).map (fun t => t.result) =
    some (.raised (.usage .badIndex)) := by decide
theorem test_errClr : (after .errClr { State.reset with err := 0x26#6 }).map (fun t => t.err) = some 0x00#6 := by decide
theorem test_illegalWord :
    (stepped { State.reset with port := [.word 0x00000000#32] }).map (fun t => (t.result, t.err)) =
      some (.raised (.usage .illegalOp), 0x00#6) := by decide
theorem test_rst : stepped { staged with port := [.rst] } = some State.reset := by decide

/-! ## Witnesses: for each statement with hypotheses, a state and operands that meet them

A statement with several cases has a witness for each, at a boundary value of its range. Statements that hold for
every state and operand need none. -/

/-- A state with these issues presented. -/
def presented (q : List Issue) : State :=
  { State.reset with port := q }

/-- The frame of S1. -/
def eraseFrame : List Byte :=
  [0x2F#8, 0x38#8, 0x00#8, 0x00#8, 0x01#8, 0x00#8, 0xCD#8, 0xF9#8]

/-- A response frame of S3. -/
def exitFrame : List Byte :=
  [0x2E#8, 0x34#8, 0x00#8, 0x00#8, 0x01#8, 0x00#8, 0x00#8, 0x42#8, 0x63#8]

theorem witness_StreamedBytesGiveCrc16 :
    (presented (issues [.crcInit, .crcByte 0x2F#8, .crcByte 0x38#8])).port =
      issues (.crcInit :: [0x2F#8, 0x38#8].map .crcByte) ++ [] := rfl

/-- A burst of exactly 16 bits, with its first and its last bit changed, from bit 3 on. -/
theorem witness_BurstsUpToSixteenBitsAreDetected :
    [0x10#8, 0x00#8, 0x20#8].length = [0x41#8].length + 2 ∧
    (∃ i, i < 8 * [0x10#8, 0x00#8, 0x20#8].length ∧ wireBit [0x10#8, 0x00#8, 0x20#8] i = true) ∧
    (∀ i, i < 8 * [0x10#8, 0x00#8, 0x20#8].length → wireBit [0x10#8, 0x00#8, 0x20#8] i = true →
      3 ≤ i ∧ i < 3 + 16) :=
  ⟨rfl, ⟨3, by decide⟩, by decide⟩

theorem witness_TxPushAppendsOrMarksOverflow :
    ({ State.reset with txCnt := 254#9 }).txCnt.toNat < 255 ∧
    ({ State.reset with txCnt := 255#9 }).txCnt.toNat = 255 ∧
    ({ State.reset with txCnt := 256#9 }).txCnt.toNat = 256 := by decide

theorem witness_TxBuildFollowsItsRule_opcode : inCmdSet { staged with txCmd := 0x36#8 }.txCmd = false := by decide

theorem witness_TxBuildFollowsItsRule_oversize :
    inCmdSet { staged with txCnt := 256#9 }.txCmd = true ∧ { staged with txCnt := 256#9 }.txCnt = 256#9 := by decide

theorem witness_TxBuildFollowsItsRule_busy :
    inCmdSet { staged with txCnt := 255#9, txQ := eraseFrame }.txCmd = true ∧
    { staged with txCnt := 255#9, txQ := eraseFrame }.txCnt.toNat ≤ 255 ∧
    { staged with txCnt := 255#9, txQ := eraseFrame }.txQ ≠ [] := by decide

/-- The longest payload, 255 bytes. -/
theorem witness_TxBuildFollowsItsRule_builds :
    ∃ (s : State) (payload : List Byte), inCmdSet s.txCmd = true ∧ s.txCnt.toNat ≤ 255 ∧ s.txQ = [] ∧
      payload.length = s.txCnt.toNat ∧ (∀ i, i < payload.length → s.txBuf.read i = payload[i]?) ∧
      payload.length = 255 :=
  ⟨{ staged with txCnt := 255#9, txBuf := Memory.writeFrom [] 0 (List.replicate 255 0xFF#8) },
    List.replicate 255 0xFF#8, by decide, by decide, rfl, by decide, fun i _ => Memory.read_ofBytes _ i, by decide⟩

/-- Two states that agree on the staging only. -/
theorem witness_BuiltFrameDependsOnlyOnStaging :
    ∃ s1 s2 t1 : State, s1.txQ = [] ∧ s2.txQ = [] ∧
      s1.txCmd = s2.txCmd ∧ s1.txAddr = s2.txAddr ∧ s1.txCnt = s2.txCnt ∧
      (∀ i, i < s1.txCnt.toNat → s1.txBuf.read i = s2.txBuf.read i) ∧
      exec .txBuild s1 = .next t1 ∧ s1 ≠ s2 :=
  ⟨staged, { staged with crc := 0xFFFF#16, err := 0x26#6, frame := some writeFrame }, _, rfl, rfl, rfl, rfl, rfl,
    fun _ _ => rfl, rfl, by decide⟩

theorem witness_LineTakeRemovesTheHead :
    State.reset.txQ = [] ∧ { staged with txQ := eraseFrame }.txQ = 0x2F#8 :: eraseFrame.tail := by decide

/-- The take after the last byte of the frame. -/
theorem witness_LineTakesReturnTheFrameInOrder :
    8 ≤ ({ presented (issues (List.replicate 9 .lineTake)) with txQ := eraseFrame }).txQ.length ∧
    ({ presented (issues (List.replicate 9 .lineTake)) with txQ := eraseFrame }).port =
      issues (List.replicate (8 + 1) .lineTake) ++ [] := by decide

/-- A state that meets the invariant with every register holding a value: S1 half sent, S4 decoded and interpreted. -/
def busyState : State :=
  { interpreted with
    txCmd := 0x38#8, txCnt := 1#9, txBuf := [(0, 0x00#8)], txQ := [0xCD#8, 0xF9#8]
    rxCnt := 1#9, rxBuf := [(0, 0x2E#8)], err := 0x26#6 }

theorem busyState_inv : busyState.Inv where
  txCnt_le := by decide
  txBuf_held := by unfold Memory.holdsBelow; decide
  rxCnt_le := by decide
  rxBuf_held := by unfold Memory.holdsBelow; decide
  txQ_length := by decide
  txQ_built := fun _ =>
    ⟨0x38#8, 0x0000#16, [0x00#8], eraseFrame, by rfl, [0x2F#8, 0x38#8, 0x00#8, 0x00#8, 0x01#8, 0x00#8], rfl⟩
  err_class := by decide
  frame_legal := fun f h => by
    obtain rfl : identFrame = f := by simpa [busyState, interpreted, holding] using h
    exact { start_eq := rfl, cmd_known := by decide, ack_known := by decide,
            pl_held := by unfold Memory.holdsBelow; decide }
  kind_valid := fun _ => rfl
  ident_legal := fun r f hr hf => by
    obtain rfl : identFrame = f := by simpa [busyState, interpreted, holding] using hf
    obtain rfl : identRegs = r := by simpa [busyState, interpreted] using hr
    exact { cmd_eq := rfl, len_eq := rfl, mode_eq := rfl }

/-- The longest queue the invariant allows and both overflow marks. -/
def overflownState : State :=
  { State.reset with
    txCmd := 0x3B#8, txCnt := 256#9, txBuf := Memory.writeFrom [] 0 (List.replicate 255 0xFF#8)
    rxCnt := 264#9, rxBuf := Memory.writeFrom [] 0 (List.replicate 263 0x2E#8)
    txQ := requestFrame 0x3B#8 0x1A00#16 (List.replicate 255 0x00#8) }

theorem replicate_held (n : Nat) (b : Byte) :
    Memory.holdsBelow (Memory.writeFrom [] 0 (List.replicate n b)) n := by
  have h : Memory.holdsBelow [] 0 := rfl
  simpa using h.writeFrom (List.replicate n b)

theorem overflownState_inv : overflownState.Inv where
  txCnt_le := by decide
  txBuf_held := replicate_held 255 0xFF#8
  rxCnt_le := by decide
  rxBuf_held := replicate_held 263 0x2E#8
  txQ_length := by simp [overflownState, requestFrame, requestBody, withCrc]
  txQ_built := fun _ => ⟨0x3B#8, 0x1A00#16, List.replicate 255 0x00#8, overflownState.txQ,
    by simp [buildBytes, overflownState, Config.maxPayload, inCmdSet], List.suffix_refl _⟩
  err_class := by decide
  frame_legal := fun f h => by simp [overflownState, State.reset] at h
  kind_valid := fun h => by simp [overflownState, State.reset] at h
  ident_legal := fun r f h => by simp [overflownState, State.reset] at h

/-- A build with other operations in between, from a state that holds a decoded frame. -/
theorem witness_InterleavedBuildAgreesWithBuildBytes :
    ∃ (s : State) (prog : List Instr), s.Inv ∧ s.txQ = [] ∧
      (∀ i ∈ prog, i.stages = true ∨ i.interleaves = true) ∧
      prog.filter Instr.stages = .txNew 0x38#8 0x0000#16 :: [0x00#8].map .txPush ∧
      s.port = issues (prog ++ [.txBuild]) ++ [.rst] :=
  ⟨presented (issues ([.txNew 0x38#8 0x0000#16, .crcByte 0x12#8, .rxPush 0x2E#8, .rxParse, .txPush 0x00#8, .rd 0x0E#8] ++
      [.txBuild]) ++ [.rst]),
    [.txNew 0x38#8 0x0000#16, .crcByte 0x12#8, .rxPush 0x2E#8, .rxParse, .txPush 0x00#8, .rd 0x0E#8],
    { txCnt_le := by decide
      txBuf_held := rfl
      rxCnt_le := by decide
      rxBuf_held := rfl
      txQ_length := by decide
      txQ_built := fun h => absurd rfl h
      err_class := by decide
      frame_legal := fun f h => by simp [presented, State.reset] at h
      kind_valid := fun h => by simp [presented, State.reset] at h
      ident_legal := fun r f h => by simp [presented, State.reset] at h },
    rfl, by decide, by decide, rfl⟩

theorem witness_RequestRowsPutTheirFrameInTheQueue :
    (List.replicate 255 0xFF#8).length ≤ 255 ∧ State.reset.txQ = [] := by decide

theorem witness_RequestRowsHoldOrRefuseOversize :
    ((List.replicate 255 0xFF#8).length ≤ 255 ∧ busyState.txQ ≠ []) ∧ 255 < (List.replicate 256 0xFF#8).length := by
  decide

theorem witness_RxPushAppendsOrMarksOverflow :
    ({ State.reset with rxCnt := 262#9 }).rxCnt.toNat < 263 ∧
    ({ State.reset with rxCnt := 263#9 }).rxCnt.toNat = 263 ∧
    ({ State.reset with rxCnt := 264#9 }).rxCnt.toNat = 264 := by decide

theorem witness_BuiltRequestSplitsBackAndIsNoResponse :
    buildBytes 0x38#8 0x0000#16 [0x00#8] = .ok eraseFrame := by rfl

theorem witness_SingleBitCorruptionIsRefused :
    inCmdSet 0x3A#8 = true ∧ inAckSet 0x0F#8 = true ∧ (List.replicate 255 0xFF#8).length ≤ 255 ∧
    262 < (closed (responseBytes 0x3A#8 0x0000#16 (List.replicate 255 0xFF#8) 0x0F#8) 0x0000#16).length ∧
    0x2F#8 ≠ 0x2E#8 := by decide

theorem witness_RxParseFollowsItsRule_overflow : { State.reset with rxCnt := 264#9 }.rxCnt = 264#9 := rfl

/-- The fullest buffer that is judged, 263 bytes of zeros: `L` = 0 does not fit. -/
theorem witness_RxParseFollowsItsRule_refused :
    ∃ (s : State) (r : List Byte), s.rxCnt.toNat ≤ 263 ∧ r.length = s.rxCnt.toNat ∧
      (∀ i, i < r.length → s.rxBuf.read i = r[i]?) ∧ parseBytes r = .error .length ∧ r.length = 263 :=
  ⟨received (List.replicate 263 0x00#8), List.replicate 263 0x00#8, by decide, by decide,
    fun i _ => Memory.read_ofBytes _ i, by rfl, by decide⟩

theorem witness_RxParseFollowsItsRule_accepted :
    ∃ (s : State) (r : List Byte) (p : ParsedFrame), s.rxCnt.toNat ≤ 263 ∧ r.length = s.rxCnt.toNat ∧
      (∀ i, i < r.length → s.rxBuf.read i = r[i]?) ∧ parseBytes r = .ok p :=
  ⟨received exitFrame, exitFrame, ⟨0x34#8, 0x0000#16, [0x00#8], 0x00#8, 0x4263#16⟩, by decide, by decide,
    fun i _ => Memory.read_ofBytes _ i, by rfl⟩

theorem witness_ReceivedBytesAgreeWithParseBytes :
    (presented (issues (.rxClr :: exitFrame.map .rxPush ++ [.rxParse]) ++ [.rst])).port =
      issues (.rxClr :: exitFrame.map .rxPush ++ [.rxParse]) ++ [.rst] := rfl

theorem witness_RxPayloadFollowsItsRule_noFrame : State.reset.frame = none := rfl

theorem witness_RxPayloadFollowsItsRule_raw :
    (holding writeFrame).frame = some writeFrame ∧ [0x00#8].length = writeFrame.len.toNat ∧
    (∀ i, i < [0x00#8].length → writeFrame.pl.read i = [0x00#8][i]?) ∧ writeFrame.cmd ≠ 0x37#8 := by decide

/-- Mode 3, the highest known one. -/
theorem witness_RxPayloadFollowsItsRule_ident :
    ∃ (f : FrameRegs) (m : Byte), (holding f).frame = some f ∧ [0xF3#8, 0x30#8, 0xAA#8, m].length = f.len.toNat ∧
      (∀ i, i < [0xF3#8, 0x30#8, 0xAA#8, m].length → f.pl.read i = [0xF3#8, 0x30#8, 0xAA#8, m][i]?) ∧
      f.cmd = 0x37#8 ∧ m.toNat = 3 :=
  ⟨{ identFrame with pl := Memory.writeFrom [] 0 [0xF3#8, 0x30#8, 0xAA#8, 0x03#8] }, 0x03#8, rfl, by decide,
    fun i _ => Memory.read_ofBytes _ i, rfl, by decide⟩

/-- Mode 4, the lowest unknown one, and a payload of three bytes. -/
theorem witness_RxPayloadFollowsItsRule_malformed :
    (∃ (f : FrameRegs) (m : Byte), (holding f).frame = some f ∧ [0xF3#8, 0x30#8, 0xAA#8, m].length = f.len.toNat ∧
      (∀ i, i < [0xF3#8, 0x30#8, 0xAA#8, m].length → f.pl.read i = [0xF3#8, 0x30#8, 0xAA#8, m][i]?) ∧
      f.cmd = 0x37#8 ∧ m.toNat = 4) ∧
    (∃ (f : FrameRegs) (p : List Byte), (holding f).frame = some f ∧ p.length = f.len.toNat ∧
      (∀ i, i < p.length → f.pl.read i = p[i]?) ∧ f.cmd = 0x37#8 ∧ p.length = 3) :=
  ⟨⟨{ identFrame with pl := Memory.writeFrom [] 0 [0xF3#8, 0x30#8, 0xAA#8, 0x04#8] }, 0x04#8, rfl, by decide,
      fun i _ => Memory.read_ofBytes _ i, rfl, by decide⟩,
    ⟨{ identFrame with len := 3#8, pl := Memory.writeFrom [] 0 [0xF3#8, 0x30#8, 0xAA#8] }, [0xF3#8, 0x30#8, 0xAA#8],
      rfl, by decide, fun i _ => Memory.read_ofBytes _ i, rfl, by decide⟩⟩

theorem witness_ResponseRowsAreDecoded :
    [0x00#8].length ≤ 255 ∧ inAckSet 0x00#8 = true ∧
    (0x34#8, Instr.interfaceExitRsp 0x0000#16 [0x00#8] 0x00#8 0x4263#16) ∈
      responseRows 0x0000#16 [0x00#8] 0x00#8 0x4263#16 ∧
    0x4263#16 = crc16 (responseBytes 0x34#8 0x0000#16 [0x00#8] 0x00#8) := by decide

theorem witness_ResponseRowsAreRefusedByAckOrCrc :
    (List.replicate 255 0xFF#8).length ≤ 255 ∧ inAckSet 0x01#8 = false ∧
    (inAckSet 0x00#8 = true ∧ 0x4264#16 ≠ crc16 (responseBytes 0x34#8 0x0000#16 [0x00#8] 0x00#8)) := by decide

/-- Every case of the register map: a frame held, an identification payload held, neither, and the lowest number
that names no register. -/
theorem witness_RdReadsTheRegisterMap :
    (∃ f, interpreted.frame = some f) ∧ (∃ r, interpreted.interp = .ident r) ∧ State.reset.frame = none ∧
    (∀ r, (holding writeFrame).interp ≠ .ident r) ∧ 0x12 < (0x13#8).toNat :=
  ⟨⟨_, rfl⟩, ⟨_, rfl⟩, rfl, fun r h => by simp [holding, State.reset] at h, by decide⟩

theorem witness_RdPlReadsThePayload :
    State.reset.frame = none ∧ (holding identFrame).frame = some identFrame ∧
    identFrame.len.toNat ≤ (0x04#8).toNat ∧
    ((0x03#8).toNat < identFrame.len.toNat ∧ identFrame.pl.read (0x03#8).toNat = some 0x01#8) := by decide

theorem witness_StepRunsTheDecodedInstruction :
    (presented [.word 0x303AAABB#32]).port = .word 0x303AAABB#32 :: [] ∧
    decodeIssue (.word 0x303AAABB#32) = .ok (.txNew 0x3A#8 0xAABB#16) ∧ State.reset.port = [] :=
  ⟨rfl, by rfl, rfl⟩

theorem witness_IllegalWordsChangeNoState :
    (presented [.word 0xE1234567#32]).port = .word 0xE1234567#32 :: [] ∧
    (0xE1234567#32).extractLsb' 28 4 ∈ [0x0#4, 0xE#4, 0xF#4] := by decide

theorem witness_DecodeUndoesEncode :
    (Instr.deviceWriteReq 0x1A00#16 (List.replicate 255 0xFF#8)).wf = true ∧
    (Instr.deviceReadRsp 0x1A00#16 (List.replicate 255 0xFF#8) 0x01#8 0xFFFF#16).wf = true ∧
    (Instr.rdPl 0xFF#8).wf = true := by decide

theorem witness_ResetInputResetsEverything : { busyState with port := [.rst] }.port = .rst :: [] := rfl

/-- The invariant of a state in use does not depend on what is issued next: here an interpretation. -/
theorem witness_EveryStepKeepsTheInvariant :
    busyState.Inv ∧ overflownState.Inv ∧ ∃ t, step { busyState with port := [.word 0xA0000000#32] } = .next t :=
  ⟨busyState_inv, overflownState_inv, _, rfl⟩

theorem witness_NoStepStopsTheMachine : busyState.Inv ∧ overflownState.Inv :=
  ⟨busyState_inv, overflownState_inv⟩

theorem witness_OnlyCrcOperationsWriteCrc :
    (∃ t, exec .txBuild staged = .next t) ∧ Instr.txBuild ≠ .crcInit ∧ ∀ b, Instr.txBuild ≠ .crcByte b :=
  ⟨⟨_, rfl⟩, by simp, by simp⟩

theorem witness_DecodedFrameIsKeptUntilTheNextParse :
    (∃ t, exec .rxClr (holding identFrame) = .next t) ∧ Instr.rxClr ≠ .rxParse ∧
    (∀ addr payload ack crc, ∀ row ∈ responseRows addr payload ack crc, Instr.rxClr ≠ row.2) :=
  ⟨⟨_, rfl⟩, by simp, fun addr payload ack crc row h => by
    simp only [responseRows, List.mem_cons, List.not_mem_nil, or_false] at h
    rcases h with rfl | rfl | rfl | rfl | rfl | rfl | rfl | rfl | rfl | rfl | rfl | rfl | rfl | rfl | rfl <;> simp⟩

theorem witness_QueuedFrameIsOnlyTakenInOrder :
    (∃ t, exec .lineTake busyState = .next t) ∧ (∃ t, exec .txBuild busyState = .next t) ∧ busyState.txQ ≠ [] :=
  ⟨⟨_, rfl⟩, ⟨_, rfl⟩, by decide⟩

theorem witness_ErrRecordsExactlyTheRaisedErrors :
    (∃ t, exec .txBuild State.reset = .next t ∧ t.result = .raised (.encoding .opcode)) ∧
    (∃ t, exec .rxParse State.reset = .next t ∧ t.result = .raised (.decoding .empty)) ∧
    (∃ t, exec .errClr busyState = .next t) ∧ (∃ t, exec .rxClr busyState = .next t) :=
  ⟨⟨_, rfl, rfl⟩, ⟨_, rfl, rfl⟩, ⟨_, rfl⟩, ⟨_, rfl⟩⟩

theorem witness_UsageFaultsAndHoldsChangeNothing :
    Instr.framePayload (.rd 0x13#8) = none ∧
    (∃ t, exec (.rd 0x13#8) busyState = .next t ∧ ∃ c, t.result = .raised (.usage c)) ∧
    Instr.framePayload .txBuild = none ∧
    (∃ t, exec .txBuild busyState = .next t ∧ ∃ h, t.result = .held h) :=
  ⟨rfl, ⟨_, rfl, _, rfl⟩, rfl, ⟨_, rfl, _, rfl⟩⟩

/-- An unknown opcode, and bytes in no frame's layout: issues that spell no row. -/
theorem witness_PseudoInstructionsAgreeWithTheFunctions :
    (presented [.build 0x36#8 0x0000#16 [0x00#8]]).port = .build 0x36#8 0x0000#16 [0x00#8] :: [] ∧
    (presented [.build 0x36#8 0x0000#16 [0x00#8]]).txQ = [] ∧
    (presented [.parse [0x2E#8]]).port = .parse [0x2E#8] :: [] := by decide

/-- The call with both defaults (S1), at the first and at the last byte of the frame. -/
theorem witness_BuildCallCollectsItsFrame :
    (presented [.buildCall 0x38#8 none none, .rst]).port = .buildCall 0x38#8 none none :: [.rst] ∧
    (presented [.buildCall 0x38#8 none none, .rst]).txQ = [] ∧ inCmdSet 0x38#8 = true ∧
    ((none : Option (List Byte)).getD [0x00#8]).length ≤ 255 ∧
    0 < 7 + ((none : Option (List Byte)).getD [0x00#8]).length ∧
    7 < 7 + ((none : Option (List Byte)).getD [0x00#8]).length := by decide

theorem witness_BuildCallExpandsToItsOperations :
    (presented [.buildCall 0x3A#8 (some 0xAABB#16) (some [])]).port =
      .buildCall 0x3A#8 (some 0xAABB#16) (some []) :: [] := rfl

/-- R48's own default: `build(c)` is `TX.NEW c, 0x0000 ; TX.PUSH 0x00 ; TX.BUILD`, then 7 + 1 `LINE.TAKE`. -/
theorem test_buildCall_default :
    (stepped (presented [.buildCall 0x38#8 none none])).map (fun t => t.port) =
      some ([.word 0x30380000#32, .word 0x40000000#32, .word 0x50000000#32] ++
        List.replicate 8 (.word 0x60000000#32)) := by decide

end Sys2Proof.Tests
end

/-! PROOFS of the family 10_state.md. First the rules the proofs cite: what each instruction runs, what each shared
operation leaves unchanged, and that each keeps the invariant; then the statements. -/

namespace Sys2Proof

open Sys2Proof.Machine Sys2Proof.Claims

/-! ## What an instruction runs: one operation word, or a whole request or response row -/

/-- Case analysis on an instruction as the opcode table groups its rows: thirteen operation words, the request rows,
the response rows. -/
theorem Instr.rowCases {P : Instr → Prop}
    (crcInit : P .crcInit) (crcByte : ∀ b, P (.crcByte b))
    (txNew : ∀ cmd addr, P (.txNew cmd addr)) (txPush : ∀ b, P (.txPush b)) (txBuild : P .txBuild)
    (lineTake : P .lineTake)
    (rxClr : P .rxClr) (rxPush : ∀ b, P (.rxPush b)) (rxParse : P .rxParse) (rxPayload : P .rxPayload)
    (rd : ∀ reg, P (.rd reg)) (rdPl : ∀ k, P (.rdPl k)) (errClr : P .errClr)
    (request : ∀ i addr payload, (∃ cmd, (cmd, i) ∈ requestRows addr payload) → P i)
    (response : ∀ i addr payload ack crc, (∃ cmd, (cmd, i) ∈ responseRows addr payload ack crc) → P i)
    (i : Instr) : P i := by
  cases i
  case crcInit => exact crcInit
  case crcByte b => exact crcByte b
  case txNew cmd addr => exact txNew cmd addr
  case txPush b => exact txPush b
  case txBuild => exact txBuild
  case lineTake => exact lineTake
  case rxClr => exact rxClr
  case rxPush b => exact rxPush b
  case rxParse => exact rxParse
  case rxPayload => exact rxPayload
  case rd reg => exact rd reg
  case rdPl k => exact rdPl k
  case errClr => exact errClr
  case interfaceTestAliveReq a p | protocolGetVersionReq a p | interfaceGetNameReq a p | interfaceGetVersionReq a p
      | interfaceExitReq a p | deviceResetReq a p | deviceInitFlashReq a p | deviceEraseAllReq a p
      | devicePageEraseReq a p | deviceReadReq a p | deviceWriteReq a p | deviceC2ckLowReq a p
      | deviceReadEepromReq a p | deviceWriteEepromReq a p | interfaceSetModeReq a p =>
    exact request _ a p (by simp [requestRows])
  case interfaceTestAliveRsp a p k c | protocolGetVersionRsp a p k c | interfaceGetNameRsp a p k c
      | interfaceGetVersionRsp a p k c | interfaceExitRsp a p k c | deviceResetRsp a p k c
      | deviceInitFlashRsp a p k c | deviceEraseAllRsp a p k c | devicePageEraseRsp a p k c | deviceReadRsp a p k c
      | deviceWriteRsp a p k c | deviceC2ckLowRsp a p k c | deviceReadEepromRsp a p k c
      | deviceWriteEepromRsp a p k c | interfaceSetModeRsp a p k c =>
    exact response _ a p k c (by simp [responseRows])

end Sys2Proof

namespace Sys2Proof.Machine

open Sys2Proof.Claims

/-- A request row runs the pseudo-instruction `build` with its own opcode (R48, R85 to R99). -/
theorem exec_requestRow {cmd : Byte} {i : Instr} {addr : Half} {payload : List Byte}
    (hrow : (cmd, i) ∈ requestRows addr payload) (s : State) : exec i s = s.buildRequest cmd addr payload := by
  simp only [requestRows, List.mem_cons, Prod.mk.injEq, List.not_mem_nil, or_false] at hrow
  rcases hrow with h | h | h | h | h | h | h | h | h | h | h | h | h | h | h <;>
    (obtain ⟨rfl, rfl⟩ := h; rfl)

/-- A response row runs the pseudo-instruction `parse` on its own frame (R49, R85 to R99). -/
theorem exec_responseRow {cmd : Byte} {i : Instr} {addr : Half} {payload : List Byte} {ack : Byte} {crc : Half}
    (hrow : (cmd, i) ∈ responseRows addr payload ack crc) (s : State) :
    exec i s = s.parseSequence (responseFrame cmd addr payload ack crc) := by
  simp only [responseRows, List.mem_cons, Prod.mk.injEq, List.not_mem_nil, or_false] at hrow
  rcases hrow with h | h | h | h | h | h | h | h | h | h | h | h | h | h | h <;>
    (obtain ⟨rfl, rfl⟩ := h; rfl)

/-! ## The step (R7) -/

theorem step_of_port_nil {s : State} (hp : s.port = []) : step s = .next s := by
  simp [step, State.fetch, hp]

theorem step_of_decodes {s : State} {q : Issue} {rest : List Issue} {i : Instr}
    (hp : s.port = q :: rest) (hd : decodeIssue q = .ok i) : step s = exec i { s with port := rest } := by
  simp [step, State.fetch, hp, hd]

theorem step_of_undecoded {s : State} {q : Issue} {rest : List Issue} {e : DecodeError}
    (hp : s.port = q :: rest) (hd : decodeIssue q = .error e) :
    step s = State.runUndecoded { s with port := rest } q := by
  simp [step, State.fetch, hp, hd]

/-! ## What the bytes of a whole row are staged and judged as -/

/-- A sequence written to an empty store is held at exactly its indices. -/
theorem Memory.holdsBelow_ofBytes (bytes : List Byte) :
    (Memory.writeFrom [] 0 bytes).holdsBelow bytes.length := by
  have hempty : Memory.holdsBelow [] 0 := rfl
  simpa using hempty.writeFrom bytes

/-- The pseudo-instruction `build` is `TX.BUILD` over a legally staged payload, of whatever length (R48, R62). -/
theorem State.buildRequest_stages (s : State) (cmd : Byte) (addr : Half) (payload : List Byte) :
    ∃ (cnt : BitVec 9) (buf : Memory), cnt.toNat ≤ 256 ∧ buf.holdsBelow (min cnt.toNat 255) ∧
      s.buildRequest cmd addr payload =
        State.buildFrame { s with txCmd := cmd, txAddr := addr, txCnt := cnt, txBuf := buf } := by
  by_cases hlen : payload.length ≤ 255
  · have hcnt : (BitVec.ofNat 9 payload.length).toNat = payload.length := by
      rw [BitVec.toNat_ofNat]; omega
    refine ⟨_, _, by omega, ?_, s.buildRequest_eq cmd addr payload hlen⟩
    rw [hcnt, min_eq_left hlen]
    exact Memory.holdsBelow_ofBytes payload
  · refine ⟨_, _, by decide, ?_, s.buildRequest_overflow cmd addr payload (by omega)⟩
    have hheld := Memory.holdsBelow_ofBytes (payload.take 255)
    rwa [List.length_take, min_eq_left (by omega)] at hheld

/-- `RX.PARSE` judges some byte sequence: the verdict on an overflowed buffer is that on one lone byte (R73). -/
theorem State.parseReceived_judges {s t : State} (h : s.parseReceived = .next t) :
    ∃ r, t = s.judge (parseBytes r) := by
  rcases s.parseReceived_next t h with ⟨-, ht⟩ | ⟨-, r, -, ht⟩
  · exact ⟨[0x00#8], ht⟩
  · exact ⟨r, ht⟩

/-- The pseudo-instruction `parse` always ends in a judgement over a legally filled `RXBUF` (R49, R72). -/
theorem State.parseSequence_judges (s : State) (bytes : List Byte) :
    ∃ (cnt : BitVec 9) (buf : Memory) (r : List Byte), cnt.toNat ≤ 264 ∧ buf.holdsBelow (min cnt.toNat 263) ∧
      s.parseSequence bytes = .next (State.judge { s with rxCnt := cnt, rxBuf := buf } (parseBytes r)) := by
  by_cases hlen : bytes.length ≤ 263
  · have hcnt : (BitVec.ofNat 9 bytes.length).toNat = bytes.length := by
      rw [BitVec.toNat_ofNat]; omega
    refine ⟨_, _, bytes, by omega, ?_, s.parseSequence_eq bytes hlen⟩
    rw [hcnt, min_eq_left hlen]
    exact Memory.holdsBelow_ofBytes bytes
  · refine ⟨_, _, [0x00#8], by decide, ?_, s.parseSequence_overflow bytes (by omega)⟩
    have hheld := Memory.holdsBelow_ofBytes (bytes.take 263)
    rwa [List.length_take, min_eq_left (by omega)] at hheld

/-- The only error of `interpret_payload` (R74). -/
theorem interpretPayload_error {cmd : Byte} {payload : List Byte} {c : DecodingCause}
    (h : interpretPayload cmd payload = .error c) : c = .payload := by
  rcases interpretPayload_cases cmd payload with ⟨-, hi⟩ | ⟨-, _, _, _, _, -, -, hi⟩ | ⟨-, -, hi⟩ <;>
    simp_all

/-- What `interpret_payload` took an identification payload from (R74). -/
theorem interpretPayload_ident {cmd : Byte} {payload : List Byte} {r : IdentRegs}
    (h : interpretPayload cmd payload = .ok (.ident r)) :
    cmd = 0x37#8 ∧ ∃ sig0 sig1 boot m : Byte, payload = [sig0, sig1, boot, m] ∧ m.toNat ≤ 3 ∧
      r.mode = m.setWidth 2 := by
  rcases interpretPayload_cases cmd payload with ⟨-, hi⟩ | ⟨hc, sig0, sig1, boot, m, hp, hm, hi⟩ | ⟨-, -, hi⟩
  · simp [h] at hi
  · obtain rfl : r = _ := by simpa [h] using hi
    exact ⟨hc, sig0, sig1, boot, m, hp, hm, rfl⟩
  · simp [h] at hi

/-! ## Frames: all that each operation can change -/

theorem State.takeByte_frame (s : State) :
    s.takeByte = { s with txQ := s.takeByte.txQ, result := s.takeByte.result } := by
  rcases s.takeByte_cases with ⟨-, ht⟩ | ⟨b, rest, -, ht⟩ <;> rw [ht]
  rfl

theorem State.readRegister_frame (s : State) (reg : Byte) :
    s.readRegister reg = { s with result := (s.readRegister reg).result } := by
  rcases s.readRegister_cases reg with ⟨v, -, ht⟩ | ⟨c, -, ht⟩ <;> rw [ht]

theorem State.readPayloadByte_frame {s t : State} {k : Byte} (h : s.readPayloadByte k = .next t) :
    t = { s with result := t.result } := by
  rcases s.readPayloadByte_next t k h with ⟨-, rfl⟩ | ⟨f, -, -, rfl⟩ | ⟨f, b, -, -, -, rfl⟩ <;> rfl

theorem State.buildFrame_frame {s t : State} (h : s.buildFrame = .next t) :
    t = { s with txQ := t.txQ, err := t.err, result := t.result } := by
  rcases s.buildFrame_next t h with ⟨-, rfl⟩ | ⟨-, -, rfl⟩ | ⟨-, -, -, rfl⟩ | ⟨-, -, -, p, -, rfl⟩ <;> rfl

theorem State.buildRequest_frame {s t : State} {cmd : Byte} {addr : Half} {payload : List Byte}
    (h : s.buildRequest cmd addr payload = .next t) :
    t = { s with
      txCmd := cmd, txAddr := addr, txCnt := t.txCnt, txBuf := t.txBuf
      txQ := t.txQ, err := t.err, result := t.result } := by
  obtain ⟨cnt, buf, -, -, hb⟩ := s.buildRequest_stages cmd addr payload
  rw [State.buildFrame_frame (hb.symm.trans h)]

theorem State.judge_frame (s : State) (v : Except DecodingCause ParsedFrame) :
    s.judge v = { s with
      frame := (s.judge v).frame, interp := (s.judge v).interp
      err := (s.judge v).err, result := (s.judge v).result } := by
  rcases s.judge_cases v with ⟨c, -, hj⟩ | ⟨p, -, hj⟩ <;> rw [hj]
  cases c <;> rfl

theorem State.interpretFrame_frame {s t : State} (h : s.interpretFrame = .next t) :
    t = { s with interp := t.interp, err := t.err, result := t.result } := by
  rcases s.interpretFrame_next t h with
    ⟨-, rfl⟩ | ⟨f, p, -, -, ⟨c, hc, rfl⟩ | ⟨r, -, rfl⟩ | ⟨p', -, rfl⟩⟩
  · rfl
  · obtain rfl := interpretPayload_error hc
    rfl
  · rfl
  · rfl

/-! ## `CRC` and the frame registers -/

theorem State.parseReceived_crc {s t : State} (h : s.parseReceived = .next t) : t.crc = s.crc := by
  obtain ⟨r, rfl⟩ := State.parseReceived_judges h
  rw [s.judge_frame]

theorem State.parseSequence_crc {s t : State} {bytes : List Byte} (h : s.parseSequence bytes = .next t) :
    t.crc = s.crc := by
  obtain ⟨cnt, buf, r, -, -, hj⟩ := s.parseSequence_judges bytes
  rw [← Host.Outcome.next.inj (hj.symm.trans h), State.judge_frame]

theorem exec_crc_of_ne {i : Instr} {s t : State} (h : exec i s = .next t) (hinit : i ≠ .crcInit)
    (hbyte : ∀ b, i ≠ .crcByte b) : t.crc = s.crc := by
  cases i using Instr.rowCases with
  | crcInit => exact absurd rfl hinit
  | crcByte b => exact absurd rfl (hbyte b)
  | txNew cmd addr => cases h; rfl
  | txPush b => cases h; exact s.stagePush_crc b
  | txBuild => rw [State.buildFrame_frame h]
  | lineTake => cases h; rw [s.takeByte_frame]
  | rxClr => cases h; rfl
  | rxPush b => cases h; exact s.receive_crc b
  | rxParse => exact State.parseReceived_crc h
  | rxPayload => rw [State.interpretFrame_frame h]
  | rd reg => cases h; rw [s.readRegister_frame reg]
  | rdPl k => rw [State.readPayloadByte_frame h]
  | errClr => cases h; rfl
  | request i addr payload hrow =>
    obtain ⟨cmd, hrow⟩ := hrow
    rw [State.buildRequest_frame ((exec_requestRow hrow s).symm.trans h)]
  | response i addr payload ack crc hrow =>
    obtain ⟨cmd, hrow⟩ := hrow
    exact State.parseSequence_crc ((exec_responseRow hrow s).symm.trans h)

theorem exec_frame_of_ne {i : Instr} {s t : State} (h : exec i s = .next t) (hparse : i ≠ .rxParse)
    (hresponse : ∀ addr payload ack crc, ∀ row ∈ responseRows addr payload ack crc, i ≠ row.2) :
    t.frame = s.frame := by
  cases i using Instr.rowCases with
  | crcInit => cases h; rfl
  | crcByte b => cases h; rfl
  | txNew cmd addr => cases h; rfl
  | txPush b => cases h; exact s.stagePush_frame b
  | txBuild => rw [State.buildFrame_frame h]
  | lineTake => cases h; rw [s.takeByte_frame]
  | rxClr => cases h; rfl
  | rxPush b => cases h; exact s.receive_frame b
  | rxParse => exact absurd rfl hparse
  | rxPayload => rw [State.interpretFrame_frame h]
  | rd reg => cases h; rw [s.readRegister_frame reg]
  | rdPl k => rw [State.readPayloadByte_frame h]
  | errClr => cases h; rfl
  | request i addr payload hrow =>
    obtain ⟨cmd, hrow⟩ := hrow
    rw [State.buildRequest_frame ((exec_requestRow hrow s).symm.trans h)]
  | response i addr payload ack crc hrow =>
    obtain ⟨cmd, hrow⟩ := hrow
    exact absurd rfl (hresponse addr payload ack crc _ hrow)

/-! ## The invariant of R24, operation by operation -/

theorem State.reset_inv : State.reset.Inv where
  txCnt_le := by decide
  txBuf_held := rfl
  rxCnt_le := by decide
  rxBuf_held := rfl
  txQ_length := by decide
  txQ_built := fun h => absurd rfl h
  err_class := by decide
  frame_legal := fun _ h => nomatch h
  kind_valid := fun h => absurd rfl h
  ident_legal := fun _ _ h => nomatch h

/-- What is issued next is no part of the block's state. -/
theorem State.Inv.withPort {s : State} (hs : s.Inv) (q : List Issue) : State.Inv { s with port := q } :=
  { hs with }

/-- The invariant says nothing of the outcome delivered; nor does it of `CRC`, `TX_CMD` and `TX_ADDR`. -/
theorem State.Inv.finish {s : State} (hs : s.Inv) (r : Result) : (s.finish r).Inv :=
  { hs with }

/-- The staging registers may take any legal value. -/
theorem State.Inv.staged {s : State} (hs : s.Inv) (cmd : Byte) (addr : Half) {cnt : BitVec 9} {buf : Memory}
    (hcnt : cnt.toNat ≤ 256) (hbuf : buf.holdsBelow (min cnt.toNat 255)) :
    State.Inv { s with txCmd := cmd, txAddr := addr, txCnt := cnt, txBuf := buf } :=
  { hs with txCnt_le := hcnt, txBuf_held := hbuf }

/-- The receive buffer may take any legal value. -/
theorem State.Inv.received {s : State} (hs : s.Inv) {cnt : BitVec 9} {buf : Memory}
    (hcnt : cnt.toNat ≤ 264) (hbuf : buf.holdsBelow (min cnt.toNat 263)) :
    State.Inv { s with rxCnt := cnt, rxBuf := buf } :=
  { hs with rxCnt_le := hcnt, rxBuf_held := hbuf }

theorem errAfter_encoding (c : EncodingCause) (old : BitVec 6) : errAfter (.encoding c) old = errOfEncoding c := by
  cases c <;> rfl

theorem errAfter_decoding (c : DecodingCause) (old : BitVec 6) : errAfter (.decoding c) old = errOfDecoding c := by
  cases c <;> rfl

/-- `ERR` stays of class 0, 1 or 2 (R17). -/
theorem errAfter_class_le (r : Raised) {old : BitVec 6} (h : (old.extractLsb' 4 2).toNat ≤ 2) :
    ((errAfter r old).extractLsb' 4 2).toNat ≤ 2 := by
  cases r with
  | encoding c => rw [errAfter_encoding]; cases c <;> decide
  | decoding c => rw [errAfter_decoding]; cases c <;> decide
  | usage c => exact h

theorem State.Inv.raise {s : State} (hs : s.Inv) (r : Raised) : (s.raise r).Inv := by
  have herr := errAfter_class_le r hs.err_class
  cases r with
  | encoding c => exact { hs with err_class := herr }
  | usage c => exact { hs with err_class := herr }
  | decoding c =>
    by_cases hc : c = .payload
    · subst hc
      exact { hs with
        err_class := herr
        kind_valid := fun h => absurd rfl h
        ident_legal := fun _ _ h => nomatch h }
    · rw [State.raise_decoding s c hc]
      exact { hs with
        err_class := herr
        frame_legal := fun _ h => nomatch h
        kind_valid := fun h => absurd rfl h
        ident_legal := fun _ _ h => nomatch h }

theorem State.Inv.stageNew {s : State} (hs : s.Inv) (cmd : Byte) (addr : Half) : (s.stageNew cmd addr).Inv :=
  hs.staged cmd addr (by decide) rfl

theorem State.Inv.stagePush {s : State} (hs : s.Inv) (b : Byte) : (s.stagePush b).Inv := by
  have hheld := hs.txBuf_held
  rcases s.stagePush_cases b with ⟨hlt, ht⟩ | ⟨heq, ht⟩ | ⟨-, ht⟩ <;> rw [ht]
  · have hnext : (s.txCnt + 1#9).toNat = s.txCnt.toNat + 1 := by bv_omega
    rw [min_eq_left hlt.le] at hheld
    refine hs.staged _ _ (by omega) ?_
    rw [hnext, min_eq_left (by omega)]
    exact hheld.write b
  · rw [heq] at hheld
    exact hs.staged _ _ (by decide) hheld
  · exact hs

theorem State.Inv.clearReceived {s : State} (hs : s.Inv) : s.clearReceived.Inv :=
  hs.received (by decide) rfl

theorem State.Inv.receive {s : State} (hs : s.Inv) (b : Byte) : (s.receive b).Inv := by
  have hheld := hs.rxBuf_held
  rcases s.receive_cases b with ⟨hlt, ht⟩ | ⟨heq, ht⟩ | ⟨-, ht⟩ <;> rw [ht]
  · have hnext : (s.rxCnt + 1#9).toNat = s.rxCnt.toNat + 1 := by bv_omega
    rw [min_eq_left hlt.le] at hheld
    refine hs.received (by omega) ?_
    rw [hnext, min_eq_left (by omega)]
    exact hheld.write b
  · rw [heq] at hheld
    exact hs.received (by decide) hheld
  · exact hs

/-- The line takes the head of a suffix of a built frame, which leaves one (R12, R65). -/
theorem State.Inv.takeByte {s : State} (hs : s.Inv) : s.takeByte.Inv := by
  rcases s.takeByte_cases with ⟨-, ht⟩ | ⟨b, rest, hq, ht⟩ <;> rw [ht]
  · exact hs.finish _
  · have hlen := hs.txQ_length
    obtain ⟨cmd, addr, payload, frame, hbuilt, hsuffix⟩ := hs.txQ_built (by simp [hq])
    rw [hq] at hlen hsuffix
    exact { hs with
      txQ_length := (Nat.le_succ _).trans hlen
      txQ_built := fun _ => ⟨cmd, addr, payload, frame, hbuilt, (List.suffix_cons b rest).trans hsuffix⟩ }

theorem requestFrame_length (cmd : Byte) (addr : Half) (payload : List Byte) :
    (requestFrame cmd addr payload).length = 7 + payload.length := by
  simp only [requestFrame, withCrc, requestBody, List.length_append, List.length_cons, List.length_nil]
  omega

/-- A built frame is a suffix of itself, of at most 7 + 255 bytes (R36, R63). -/
theorem State.Inv.buildFrame {s t : State} (hs : s.Inv) (h : s.buildFrame = .next t) : t.Inv := by
  rcases s.buildFrame_next t h with
    ⟨-, rfl⟩ | ⟨-, -, rfl⟩ | ⟨-, -, -, rfl⟩ | ⟨hcmd, hcnt, -, payload, hread, rfl⟩
  · exact hs.raise _
  · exact hs.raise _
  · exact hs.finish _
  · have hlen : payload.length ≤ 255 := by
      rw [((Memory.readFrom_eq_some_iff _ _ _ _).1 hread).1]
      exact hcnt
    have hbuilt : buildBytes s.txCmd s.txAddr payload = .ok (requestFrame s.txCmd s.txAddr payload) := by
      simp [buildBytes, hcmd, Config.maxPayload, hlen]
    exact { hs with
      txQ_length := by simp only [requestFrame_length]; omega
      txQ_built := fun _ => ⟨_, _, payload, _, hbuilt, List.suffix_refl _⟩ }

theorem State.Inv.buildRequest {s t : State} (hs : s.Inv) {cmd : Byte} {addr : Half} {payload : List Byte}
    (h : s.buildRequest cmd addr payload = .next t) : t.Inv := by
  obtain ⟨cnt, buf, hcnt, hbuf, hb⟩ := s.buildRequest_stages cmd addr payload
  exact (hs.staged cmd addr hcnt hbuf).buildFrame (hb.symm.trans h)

/-- The registers of a frame that `parse_bytes` accepts are legal (R70, R73). -/
theorem frameRegsOf_legal {r : List Byte} {p : ParsedFrame} (h : parseBytes r = .ok p) : (frameRegsOf p).Legal := by
  obtain ⟨-, hlen⟩ := parseBytes_ok_payload_length r p h
  obtain ⟨-, hcmd, hack, -, -, rfl⟩ := parseBytes_ok r p h
  exact {
    start_eq := rfl
    cmd_known := hcmd
    ack_known := hack
    pl_held := by
      rw [frameRegsOf_len _ hlen]
      exact Memory.holdsBelow_ofBytes _ }

theorem State.Inv.judge {s : State} (hs : s.Inv) (r : List Byte) : (s.judge (parseBytes r)).Inv := by
  rcases s.judge_cases (parseBytes r) with ⟨c, -, hj⟩ | ⟨p, hp, hj⟩ <;> rw [hj]
  · exact hs.raise _
  · exact { hs with
      frame_legal := fun f hf => Option.some.inj hf ▸ frameRegsOf_legal hp
      kind_valid := fun _ => rfl
      ident_legal := fun _ _ h => nomatch h }

theorem State.Inv.parseReceived {s t : State} (hs : s.Inv) (h : s.parseReceived = .next t) : t.Inv := by
  obtain ⟨r, rfl⟩ := State.parseReceived_judges h
  exact hs.judge r

theorem State.Inv.parseSequence {s t : State} (hs : s.Inv) {bytes : List Byte}
    (h : s.parseSequence bytes = .next t) : t.Inv := by
  obtain ⟨cnt, buf, r, hcnt, hbuf, hj⟩ := s.parseSequence_judges bytes
  obtain rfl := Host.Outcome.next.inj (hj.symm.trans h)
  exact (hs.received hcnt hbuf).judge r

/-- An identification payload found in a frame agrees with it (R24, R74). -/
theorem interpretPayload_ident_legal {f : FrameRegs} {payload : List Byte} {r : IdentRegs}
    (hread : f.pl.readFrom 0 f.len.toNat = some payload)
    (hi : interpretPayload f.cmd payload = .ok (.ident r)) : r.Legal f := by
  obtain ⟨hcmd, sig0, sig1, boot, m, rfl, hm, hmode⟩ := interpretPayload_ident hi
  obtain ⟨hlen, hbytes⟩ := (Memory.readFrom_eq_some_iff _ _ _ _).1 hread
  have hlen4 : f.len.toNat = 4 := hlen.symm
  have hmode' : r.mode.setWidth 8 = m := by rw [hmode]; bv_omega
  exact {
    cmd_eq := hcmd
    len_eq := BitVec.eq_of_toNat_eq hlen4
    mode_eq := by simpa [hmode'] using hbytes 3 (by omega) }

theorem State.Inv.interpretFrame {s t : State} (hs : s.Inv) (h : s.interpretFrame = .next t) : t.Inv := by
  rcases s.interpretFrame_next t h with
    ⟨-, rfl⟩ | ⟨f, payload, hf, hread, ⟨c, -, rfl⟩ | ⟨r, hi, rfl⟩ | ⟨p, -, rfl⟩⟩
  · exact hs.raise _
  · exact hs.raise _
  · exact { hs with
      kind_valid := fun _ => by simp [hf]
      ident_legal := fun r' f' hr' hf' => by
        obtain rfl : r = r' := by simpa using hr'
        obtain rfl : f = f' := by simpa [hf] using hf'
        exact interpretPayload_ident_legal hread hi }
  · exact { hs with
      kind_valid := fun _ => by simp [hf]
      ident_legal := fun _ _ h => nomatch h }

theorem State.Inv.readRegister {s : State} (hs : s.Inv) (reg : Byte) : (s.readRegister reg).Inv := by
  rw [s.readRegister_frame reg]
  exact hs.finish _

theorem State.Inv.readPayloadByte {s t : State} {k : Byte} (hs : s.Inv) (h : s.readPayloadByte k = .next t) :
    t.Inv := by
  rw [State.readPayloadByte_frame h]
  exact hs.finish _

/-! ## Every instruction and every issue keeps the invariant -/

theorem exec_keeps_inv {i : Instr} {s t : State} (hs : s.Inv) (h : exec i s = .next t) : t.Inv := by
  cases i using Instr.rowCases with
  | crcInit => cases h; exact { hs with }
  | crcByte b => cases h; exact { hs with }
  | txNew cmd addr => cases h; exact (hs.stageNew cmd addr).finish _
  | txPush b => cases h; exact (hs.stagePush b).finish _
  | txBuild => exact hs.buildFrame h
  | lineTake => cases h; exact hs.takeByte
  | rxClr => cases h; exact hs.clearReceived.finish _
  | rxPush b => cases h; exact (hs.receive b).finish _
  | rxParse => exact hs.parseReceived h
  | rxPayload => exact hs.interpretFrame h
  | rd reg => cases h; exact hs.readRegister reg
  | rdPl k => exact hs.readPayloadByte h
  | errClr => cases h; exact { hs with err_class := by simp }
  | request i addr payload hrow =>
    obtain ⟨cmd, hrow⟩ := hrow
    exact hs.buildRequest ((exec_requestRow hrow s).symm.trans h)
  | response i addr payload ack crc hrow =>
    obtain ⟨cmd, hrow⟩ := hrow
    exact hs.parseSequence ((exec_responseRow hrow s).symm.trans h)

theorem State.Inv.runUndecoded {s t : State} (hs : s.Inv) {q : Issue} (h : s.runUndecoded q = .next t) :
    t.Inv := by
  cases q with
  | word w => cases h; exact hs.raise _
  | build cmd addr payload => exact hs.buildRequest h
  | buildCall cmd addr payload => cases h; exact hs.withPort _
  | parse bytes => exact hs.parseSequence h
  | rst => cases h; exact State.reset_inv.withPort _

/-! ## No operation stops on a state that meets the invariant (R20) -/

theorem State.Inv.txBuf_holdsBelow {s : State} (hs : s.Inv) (h : s.txCnt.toNat ≤ 255) :
    s.txBuf.holdsBelow s.txCnt.toNat :=
  min_eq_left h ▸ hs.txBuf_held

theorem State.Inv.rxBuf_holdsBelow {s : State} (hs : s.Inv) (h : s.rxCnt.toNat ≤ 263) :
    s.rxBuf.holdsBelow s.rxCnt.toNat :=
  min_eq_left h ▸ hs.rxBuf_held

theorem State.Inv.buildRequest_completes {s : State} (hs : s.Inv) (cmd : Byte) (addr : Half) (payload : List Byte) :
    ∃ t, s.buildRequest cmd addr payload = .next t := by
  obtain ⟨cnt, buf, hcnt, hbuf, hb⟩ := s.buildRequest_stages cmd addr payload
  rw [hb]
  exact State.buildFrame_completes _ (hs.staged cmd addr hcnt hbuf).txBuf_holdsBelow

theorem State.parseSequence_completes (s : State) (bytes : List Byte) : ∃ t, s.parseSequence bytes = .next t := by
  obtain ⟨cnt, buf, r, -, -, hj⟩ := s.parseSequence_judges bytes
  exact ⟨_, hj⟩

theorem exec_completes (i : Instr) {s : State} (hs : s.Inv) : ∃ t, exec i s = .next t := by
  have hpl : ∀ f, s.frame = some f → f.pl.holdsBelow f.len.toNat := fun f hf => (hs.frame_legal f hf).pl_held
  cases i using Instr.rowCases with
  | crcInit => exact ⟨_, rfl⟩
  | crcByte b => exact ⟨_, rfl⟩
  | txNew cmd addr => exact ⟨_, rfl⟩
  | txPush b => exact ⟨_, rfl⟩
  | txBuild => exact s.buildFrame_completes hs.txBuf_holdsBelow
  | lineTake => exact ⟨_, rfl⟩
  | rxClr => exact ⟨_, rfl⟩
  | rxPush b => exact ⟨_, rfl⟩
  | rxParse => exact s.parseReceived_completes hs.rxBuf_holdsBelow
  | rxPayload => exact s.interpretFrame_completes hpl
  | rd reg => exact ⟨_, rfl⟩
  | rdPl k => exact s.readPayloadByte_completes k hpl
  | errClr => exact ⟨_, rfl⟩
  | request i addr payload hrow =>
    obtain ⟨cmd, hrow⟩ := hrow
    rw [exec_requestRow hrow]
    exact hs.buildRequest_completes cmd addr payload
  | response i addr payload ack crc hrow =>
    obtain ⟨cmd, hrow⟩ := hrow
    rw [exec_responseRow hrow]
    exact s.parseSequence_completes _

theorem State.Inv.runUndecoded_completes {s : State} (hs : s.Inv) (q : Issue) : ∃ t, s.runUndecoded q = .next t := by
  cases q with
  | word w => exact ⟨_, rfl⟩
  | build cmd addr payload => exact hs.buildRequest_completes cmd addr payload
  | buildCall cmd addr payload => exact ⟨_, rfl⟩
  | parse bytes => exact s.parseSequence_completes bytes
  | rst => exact ⟨_, rfl⟩

/-! ## `ERR` after each operation (R17, R101, R106) -/

/-- What an operation that started with `old` in `ERR` and does not clear it leaves there. -/
structure ErrRecorded (old : BitVec 6) (t : State) : Prop where
  /-- A raised EncodingError is recorded. -/
  encoding : ∀ c, t.result = .raised (.encoding c) → t.err = errOfEncoding c
  /-- A raised DecodingError is recorded. -/
  decoding : ∀ c, t.result = .raised (.decoding c) → t.err = errOfDecoding c
  /-- Nothing else is. -/
  otherwise : (∀ c, t.result ≠ .raised (.encoding c)) → (∀ c, t.result ≠ .raised (.decoding c)) → t.err = old

theorem ErrRecorded.raise (s : State) (r : Raised) : ErrRecorded s.err (s.raise r) where
  encoding := fun c h => by
    obtain rfl : r = .encoding c := by simpa using h
    rw [State.raise_err, errAfter_encoding]
  decoding := fun c h => by
    obtain rfl : r = .decoding c := by simpa using h
    rw [State.raise_err, errAfter_decoding]
  otherwise := fun he hd => by
    cases r with
    | encoding c => exact absurd (State.raise_result ..) (he c)
    | decoding c => exact absurd (State.raise_result ..) (hd c)
    | usage c => rfl

/-- An outcome that is no error leaves `ERR` alone. -/
theorem ErrRecorded.of_not_raised {old : BitVec 6} {t : State} (hresult : ∀ r, t.result ≠ .raised r)
    (herr : t.err = old) : ErrRecorded old t where
  encoding := fun _ h => absurd h (hresult _)
  decoding := fun _ h => absurd h (hresult _)
  otherwise := fun _ _ => herr

theorem ErrRecorded.takeByte (s : State) : ErrRecorded s.err s.takeByte := by
  rcases s.takeByte_cases with ⟨-, ht⟩ | ⟨b, rest, -, ht⟩ <;> rw [ht]
  · exact .of_not_raised (by simp) rfl
  · exact .of_not_raised (by simp) rfl

theorem ErrRecorded.buildFrame {s t : State} (h : s.buildFrame = .next t) : ErrRecorded s.err t := by
  rcases s.buildFrame_next t h with ⟨-, rfl⟩ | ⟨-, -, rfl⟩ | ⟨-, -, -, rfl⟩ | ⟨-, -, -, payload, -, rfl⟩
  · exact .raise _ _
  · exact .raise _ _
  · exact .of_not_raised (by simp) rfl
  · exact .of_not_raised (by simp) rfl

theorem ErrRecorded.buildRequest {s t : State} {cmd : Byte} {addr : Half} {payload : List Byte}
    (h : s.buildRequest cmd addr payload = .next t) : ErrRecorded s.err t := by
  obtain ⟨cnt, buf, -, -, hb⟩ := s.buildRequest_stages cmd addr payload
  have hbuild := ErrRecorded.buildFrame (hb.symm.trans h)
  exact hbuild

theorem ErrRecorded.judge (s : State) (v : Except DecodingCause ParsedFrame) : ErrRecorded s.err (s.judge v) := by
  rcases s.judge_cases v with ⟨c, -, hj⟩ | ⟨p, -, hj⟩ <;> rw [hj]
  · exact .raise _ _
  · exact .of_not_raised (by simp) rfl

theorem ErrRecorded.parseReceived {s t : State} (h : s.parseReceived = .next t) : ErrRecorded s.err t := by
  obtain ⟨r, rfl⟩ := State.parseReceived_judges h
  exact .judge _ _

theorem ErrRecorded.parseSequence {s t : State} {bytes : List Byte} (h : s.parseSequence bytes = .next t) :
    ErrRecorded s.err t := by
  obtain ⟨cnt, buf, r, -, -, hj⟩ := s.parseSequence_judges bytes
  obtain rfl := Host.Outcome.next.inj (hj.symm.trans h)
  exact .judge { s with rxCnt := cnt, rxBuf := buf } _

theorem ErrRecorded.interpretFrame {s t : State} (h : s.interpretFrame = .next t) : ErrRecorded s.err t := by
  rcases s.interpretFrame_next t h with
    ⟨-, rfl⟩ | ⟨f, payload, -, -, ⟨c, -, rfl⟩ | ⟨r, -, rfl⟩ | ⟨p, -, rfl⟩⟩
  · exact .raise _ _
  · exact .raise _ _
  · exact .of_not_raised (by simp) rfl
  · exact .of_not_raised (by simp) rfl

theorem ErrRecorded.readRegister (s : State) (reg : Byte) : ErrRecorded s.err (s.readRegister reg) := by
  rcases s.readRegister_cases reg with ⟨v, -, ht⟩ | ⟨c, -, ht⟩ <;> rw [ht]
  · exact .of_not_raised (by simp) rfl
  · exact .raise s (.usage c)

theorem ErrRecorded.readPayloadByte {s t : State} {k : Byte} (h : s.readPayloadByte k = .next t) :
    ErrRecorded s.err t := by
  rcases s.readPayloadByte_next t k h with ⟨-, rfl⟩ | ⟨f, -, -, rfl⟩ | ⟨f, b, -, -, -, rfl⟩
  · exact .raise s (.usage .noValue)
  · exact .raise s (.usage .badIndex)
  · exact .of_not_raised (by simp) rfl

theorem exec_errRecorded {i : Instr} {s t : State} (h : exec i s = .next t) (hi : i ≠ .errClr) :
    ErrRecorded s.err t := by
  cases i using Instr.rowCases with
  | crcInit => cases h; exact .of_not_raised (by simp) rfl
  | crcByte b => cases h; exact .of_not_raised (by simp) rfl
  | txNew cmd addr => cases h; exact .of_not_raised (by simp) rfl
  | txPush b => cases h; exact .of_not_raised (by simp) (s.stagePush_err b)
  | txBuild => exact .buildFrame h
  | lineTake => cases h; exact .takeByte s
  | rxClr => cases h; exact .of_not_raised (by simp) rfl
  | rxPush b => cases h; exact .of_not_raised (by simp) (s.receive_err b)
  | rxParse => exact .parseReceived h
  | rxPayload => exact .interpretFrame h
  | rd reg => cases h; exact .readRegister s reg
  | rdPl k => exact .readPayloadByte h
  | errClr => exact absurd rfl hi
  | request i addr payload hrow =>
    obtain ⟨cmd, hrow⟩ := hrow
    exact .buildRequest ((exec_requestRow hrow s).symm.trans h)
  | response i addr payload ack crc hrow =>
    obtain ⟨cmd, hrow⟩ := hrow
    exact .parseSequence ((exec_responseRow hrow s).symm.trans h)

/-! ## The register map (R19, R79) -/

theorem exec_rd_value {s : State} {reg : Byte} {v : Half} (h : s.readReg reg = .ok v) :
    exec (.rd reg) s = .next { s with result := .value v } := by
  change Host.Outcome.next (s.readRegister reg) = _
  rw [State.readRegister, h]
  rfl

theorem exec_rd_fault {s : State} {reg : Byte} {c : UsageCause} (h : s.readReg reg = .error c) :
    exec (.rd reg) s = .next { s with result := .raised (.usage c) } := by
  change Host.Outcome.next (s.readRegister reg) = _
  rw [State.readRegister, h]
  rfl

theorem State.readFrameReg_held {s : State} {f : FrameRegs} (h : s.frame = some f) (view : FrameRegs → Half) :
    s.readFrameReg view = .ok (view f) := by
  rw [State.readFrameReg, h]

theorem State.readFrameReg_absent {s : State} (h : s.frame = none) (view : FrameRegs → Half) :
    s.readFrameReg view = .error .noValue := by
  rw [State.readFrameReg, h]

theorem State.readIdentReg_held {s : State} {r : IdentRegs} (h : s.interp = .ident r) (view : IdentRegs → Half) :
    s.readIdentReg view = .ok (view r) := by
  rw [State.readIdentReg, h]

theorem State.readIdentReg_absent {s : State} (h : ∀ r, s.interp ≠ .ident r) (view : IdentRegs → Half) :
    s.readIdentReg view = .error .noValue := by
  cases hi : s.interp with
  | none => rw [State.readIdentReg, hi]
  | raw => rw [State.readIdentReg, hi]
  | ident r => exact absurd hi (h r)

theorem State.readReg_badReg {s : State} {n : Byte} (h : 0x12 < n.toNat) : s.readReg n = .error .badReg := by
  unfold State.readReg
  split
  case h_20 => rfl
  all_goals omega

/-! ## `STATUS` (R18) -/

/-- Where each field of the packed word stands. -/
theorem status_fields (kind : BitVec 2) (txqNe rxOvf txOvf devErr valid : Bool) :
    let w : BitVec 8 := 0#1 ++ kind ++ flagBit txqNe ++ flagBit rxOvf ++ flagBit txOvf ++ flagBit devErr ++ flagBit valid
    w.getLsbD 0 = valid ∧ w.getLsbD 1 = devErr ∧ w.getLsbD 2 = txOvf ∧ w.getLsbD 3 = rxOvf ∧ w.getLsbD 4 = txqNe ∧
    w.extractLsb' 5 2 = kind ∧ w.getLsbD 7 = false := by
  revert kind txqNe rxOvf txOvf devErr valid
  decide

theorem State.fValid_iff (s : State) : s.fValid = true ↔ ∃ f, s.frame = some f :=
  Option.isSome_iff_exists

theorem State.devErr_iff (s : State) : s.devErr = true ↔ ∃ f, s.frame = some f ∧ f.ack ≠ 0x00#8 := by
  cases hf : s.frame <;> simp [State.devErr, hf]

theorem State.txOvf_iff (s : State) : s.txOvf = true ↔ s.txCnt = 256#9 :=
  beq_iff_eq

theorem State.rxOvf_iff (s : State) : s.rxOvf = true ↔ s.rxCnt = 264#9 :=
  beq_iff_eq

theorem State.txqNe_iff (s : State) : s.txqNe = true ↔ s.txQ ≠ [] := by
  simp [State.txqNe]

end Sys2Proof.Machine

namespace Sys2Proof.Proofs

open Sys2Proof.Machine Sys2Proof.Claims

/-! ## The statements -/

/-- Settles O42: every arm of the step, instruction or not, keeps the invariant. -/
theorem everyStepKeepsTheInvariant : Obligations.EveryStepKeepsTheInvariant := by
  intro s t hs h
  rcases step_next s t h with ⟨-, rfl⟩ | ⟨q, rest, i, -, -, hexec⟩ | ⟨q, rest, e, -, -, hrun⟩
  · exact hs
  · exact exec_keeps_inv (hs.withPort rest) hexec
  · exact (hs.withPort rest).runUndecoded hrun

/-- Settles O30: each number selects its own view, and the view answers when its registers hold a value. -/
theorem rdReadsTheRegisterMap : Obligations.RdReadsTheRegisterMap := by
  intro s
  simp only [List.forall_mem_cons, List.not_mem_nil, false_implies, implies_true, and_true]
  refine ⟨?always, fun f hf => ?frame, fun r hr => ?ident, fun hf => ?noFrame, fun hi => ?noIdent, fun n hn => ?badReg⟩
  case always =>
    exact ⟨exec_rd_value rfl, exec_rd_value rfl, exec_rd_value rfl, exec_rd_value rfl, exec_rd_value rfl,
      exec_rd_value rfl, exec_rd_value rfl, exec_rd_value rfl⟩
  case frame =>
    have held := State.readFrameReg_held hf
    exact ⟨exec_rd_value (held _), exec_rd_value (held _), exec_rd_value (held _), exec_rd_value (held _),
      exec_rd_value (held _), exec_rd_value (held _)⟩
  case ident =>
    have held := State.readIdentReg_held hr
    exact ⟨exec_rd_value (held _), exec_rd_value (held _), exec_rd_value (held _), exec_rd_value (held _),
      exec_rd_value (held _)⟩
  case noFrame =>
    have absent := State.readFrameReg_absent hf
    exact ⟨exec_rd_fault (absent _), exec_rd_fault (absent _), exec_rd_fault (absent _), exec_rd_fault (absent _),
      exec_rd_fault (absent _), exec_rd_fault (absent _)⟩
  case noIdent =>
    have absent := State.readIdentReg_absent hi
    exact ⟨exec_rd_fault (absent _), exec_rd_fault (absent _), exec_rd_fault (absent _), exec_rd_fault (absent _),
      exec_rd_fault (absent _)⟩
  case badReg => exact exec_rd_fault (State.readReg_badReg hn)

/-- Settles O43: the invariant gives every read of a buffer the byte it asks for. -/
theorem noStepStopsTheMachine : Obligations.NoStepStopsTheMachine := by
  intro s hs
  cases hp : s.port with
  | nil => exact ⟨s, step_of_port_nil hp⟩
  | cons q rest =>
    cases hd : decodeIssue q with
    | ok i =>
      rw [step_of_decodes hp hd]
      exact exec_completes i (hs.withPort rest)
    | error e =>
      rw [step_of_undecoded hp hd]
      exact (hs.withPort rest).runUndecoded_completes q

/-- Settles O44: what the encoder, the decoder and the access operations write is in their frame lemmas, and `CRC`
is in none of them. -/
theorem onlyCrcOperationsWriteCrc : Obligations.OnlyCrcOperationsWriteCrc :=
  fun _ _ _ => exec_crc_of_ne

/-- Settles O45: only a judgement writes the frame registers; a malformed payload clears the interpretation alone. -/
theorem decodedFrameIsKeptUntilTheNextParse : Obligations.DecodedFrameIsKeptUntilTheNextParse :=
  fun _ _ _ => exec_frame_of_ne

/-- Settles O47: `ERR.CLR` apart, every instruction leaves `ERR` as its outcome says. -/
theorem errRecordsExactlyTheRaisedErrors : Obligations.ErrRecordsExactlyTheRaisedErrors := by
  intro i s t h
  by_cases hi : i = .errClr
  · subst hi
    cases h
    exact .inl ⟨rfl, rfl⟩
  · obtain ⟨hencoding, hdecoding, hotherwise⟩ := exec_errRecorded h hi
    split
    next c hc => exact hencoding c hc
    next c hc => exact hdecoding c hc
    next he hd => exact .inr ⟨hi, hotherwise he hd⟩

/-- Settles O33: the word packs the flags, and each flag says what R18 says of it. -/
theorem statusShowsTheState : Obligations.StatusShowsTheState := by
  intro s
  obtain ⟨h0, h1, h2, h3, h4, hkind, h7⟩ := status_fields s.pKind s.txqNe s.rxOvf s.txOvf s.devErr s.fValid
  refine ⟨?_, ?_, ?_, ?_, ?_, hkind, h7⟩
  · exact h0 ▸ s.fValid_iff
  · exact h1 ▸ s.devErr_iff
  · exact h2 ▸ s.txOvf_iff
  · exact h3 ▸ s.rxOvf_iff
  · exact h4 ▸ s.txqNe_iff

/-- Settles O34, by the two equations of the step. -/
theorem stepRunsTheDecodedInstruction : Obligations.StepRunsTheDecodedInstruction :=
  fun _ _ _ _ => ⟨step_of_decodes, step_of_port_nil⟩

/-- Settles O39: the register values are those of `State.reset`, and an empty store reads as holding nothing. -/
theorem resetStateIsTheSpecs : Obligations.ResetStateIsTheSpecs :=
  ⟨rfl, rfl, rfl, rfl, fun _ => rfl, rfl, rfl, fun _ => rfl, rfl, rfl, rfl, by decide⟩

/-- Settles O41: empty buffers hold exactly the indices below 0, and nothing else is held. -/
theorem resetStateMeetsTheInvariant : Obligations.ResetStateMeetsTheInvariant :=
  State.reset_inv

end Sys2Proof.Proofs

/-! PROOFS of the family 30_encoding.md. First the rules the proofs cite: the fields of an operation word, the two frame
layouts split back, what an issue runs, and runs of issued operations; then the statements. -/

namespace Sys2Proof

open Sys2Proof.Machine Sys2Proof.Claims

/-! ## Operation words (R45, R46) -/

@[simp] theorem opField_append (op x : BitVec 4) (a : Byte) (b : Half) : opField (op ++ x ++ a ++ b) = op := by
  unfold opField
  rw [BitVec.extractLsb'_append_eq_of_le (by decide), BitVec.extractLsb'_append_eq_of_le (by decide),
    BitVec.extractLsb'_append_eq_of_le (by decide)]
  exact BitVec.extractLsb'_eq_self

@[simp] theorem aField_append (op x : BitVec 4) (a : Byte) (b : Half) : aField (op ++ x ++ a ++ b) = a := by
  unfold aField
  rw [BitVec.extractLsb'_append_eq_of_le (by decide), BitVec.extractLsb'_append_eq_of_add_le (by decide)]
  exact BitVec.extractLsb'_eq_self

@[simp] theorem bField_append (op x : BitVec 4) (a : Byte) (b : Half) : bField (op ++ x ++ a ++ b) = b := by
  unfold bField
  rw [BitVec.extractLsb'_append_eq_of_add_le (by decide)]
  exact BitVec.extractLsb'_eq_self

theorem selects_crcInit : Selects 0x1#4 (fun _ _ => .crcInit) := fun _ _ _ => by simp [decodeWord]
theorem selects_crcByte : Selects 0x2#4 (fun a _ => .crcByte a) := fun _ _ _ => by simp [decodeWord]
theorem selects_txNew : Selects 0x3#4 .txNew := fun _ _ _ => by simp [decodeWord]
theorem selects_txPush : Selects 0x4#4 (fun a _ => .txPush a) := fun _ _ _ => by simp [decodeWord]
theorem selects_txBuild : Selects 0x5#4 (fun _ _ => .txBuild) := fun _ _ _ => by simp [decodeWord]
theorem selects_lineTake : Selects 0x6#4 (fun _ _ => .lineTake) := fun _ _ _ => by simp [decodeWord]
theorem selects_rxClr : Selects 0x7#4 (fun _ _ => .rxClr) := fun _ _ _ => by simp [decodeWord]
theorem selects_rxPush : Selects 0x8#4 (fun a _ => .rxPush a) := fun _ _ _ => by simp [decodeWord]
theorem selects_rxParse : Selects 0x9#4 (fun _ _ => .rxParse) := fun _ _ _ => by simp [decodeWord]
theorem selects_rxPayload : Selects 0xA#4 (fun _ _ => .rxPayload) := fun _ _ _ => by simp [decodeWord]
theorem selects_rd : Selects 0xB#4 (fun a _ => .rd a) := fun _ _ _ => by simp [decodeWord]
theorem selects_rdPl : Selects 0xC#4 (fun a _ => .rdPl a) := fun _ _ _ => by simp [decodeWord]
theorem selects_errClr : Selects 0xD#4 (fun _ _ => .errClr) := fun _ _ _ => by simp [decodeWord]

/-- The values of `OP` that select no operation (R46). -/
theorem decodeWord_of_illegal {w : OpWord} (h : opField w ∈ [0x0#4, 0xE#4, 0xF#4]) :
    decodeWord w = .error (.illegalOp (opField w)) := by
  simp only [List.mem_cons, List.not_mem_nil, or_false] at h
  rcases h with h | h | h <;> simp [decodeWord, h]

/-- Every other value of `OP` selects one (R45). -/
theorem decodeWord_of_legal {w : OpWord} (h : opField w ∉ [0x0#4, 0xE#4, 0xF#4]) : ∃ i, decodeWord w = .ok i := by
  have hrange : ∀ op : BitVec 4, op ∉ [0x0#4, 0xE#4, 0xF#4] → 1 ≤ op.toNat ∧ op.toNat ≤ 13 := by decide
  obtain ⟨hlo, hhi⟩ := hrange _ h
  unfold decodeWord
  interval_cases (opField w).toNat <;> exact ⟨_, rfl⟩

/-! ## The frame layouts split back (R36, R37, R39) -/

@[simp] theorem be16_hi8_lo8 (v : Half) : be16 (hi8 v) (lo8 v) = v := by
  unfold be16 hi8 lo8
  rw [BitVec.extractLsb'_append_extractLsb'_eq_extractLsb' (by decide)]
  exact BitVec.extractLsb'_eq_self

@[simp] theorem hi8_be16 (h l : Byte) : hi8 (be16 h l) = h := by
  unfold be16 hi8
  rw [BitVec.extractLsb'_append_eq_of_le (by decide)]
  exact BitVec.extractLsb'_eq_self

@[simp] theorem lo8_be16 (h l : Byte) : lo8 (be16 h l) = l := by
  unfold be16 lo8
  rw [BitVec.extractLsb'_append_eq_of_add_le (by decide)]
  exact BitVec.extractLsb'_eq_self

@[simp] theorem countByte_byte_toNat (b : Byte) : countByte b.toNat = b := by
  simp [countByte]

theorem splitRequest_requestFrame (cmd : Byte) (addr : Half) {payload : List Byte} (h : payload.length ≤ 255) :
    splitRequest (requestFrame cmd addr payload) = some (cmd, addr, payload) := by
  simp [splitRequest, requestFrame, withCrc, requestBody, countByte_toNat _ h]

theorem splitResponse_responseFrame (cmd : Byte) (addr : Half) {payload : List Byte} (ack : Byte) (crc : Half)
    (h : payload.length ≤ 255) :
    splitResponse (responseFrame cmd addr payload ack crc) = some (cmd, addr, payload, ack, crc) := by
  simp [splitResponse, responseFrame, withCrc, responseBody, countByte_toNat _ h]

/-- The start marker tells the two layouts apart (R35). -/
theorem splitRequest_responseFrame (cmd : Byte) (addr : Half) (payload : List Byte) (ack : Byte) (crc : Half) :
    splitRequest (responseFrame cmd addr payload ack crc) = none := by
  simp [splitRequest, responseFrame, withCrc, responseBody, Config.startReq, Config.startRsp]

/-- The response layout loses no byte: the fields split off make up the sequence again (R37, R39). -/
theorem responseFrame_of_splitResponse {f : List Byte} {cmd : Byte} {addr : Half} {payload : List Byte} {ack : Byte}
    {crc : Half} (h : splitResponse f = some (cmd, addr, payload, ack, crc)) :
    responseFrame cmd addr payload ack crc = f := by
  unfold splitResponse at h
  split at h
  next start cmd' ah al len rest =>
    split_ifs at h with hstart
    split at h
    next ack' ch cl hdrop =>
      simp only [Option.some.injEq, Prod.mk.injEq] at h
      obtain ⟨rfl, rfl, rfl, rfl, rfl⟩ := h
      have hlen : (rest.take len.toNat).length = len.toNat := by
        have := congrArg List.length hdrop
        simp only [List.length_drop, List.length_cons, List.length_nil] at this
        rw [List.length_take]
        omega
      have hrest : rest.take len.toNat ++ [ack', ch, cl] = rest := by
        rw [← hdrop, List.take_append_drop]
      simp [responseFrame, withCrc, responseBody, hlen, hstart, hrest]
    next => cases h
  next => cases h

/-! ## The rows of a frame (R41, R51) -/

theorem requestInstr_of_mem {cmd : Byte} {i : Instr} {addr : Half} {payload : List Byte}
    (hrow : (cmd, i) ∈ requestRows addr payload) :
    requestInstr cmd addr payload = some i ∧ encode i = .frame (requestFrame cmd addr payload) ∧
      i.framePayload = some payload := by
  simp only [requestRows, List.mem_cons, Prod.mk.injEq, List.not_mem_nil, or_false] at hrow
  rcases hrow with h | h | h | h | h | h | h | h | h | h | h | h | h | h | h <;>
    (obtain ⟨rfl, rfl⟩ := h; exact ⟨rfl, rfl, rfl⟩)

theorem responseInstr_of_mem {cmd : Byte} {i : Instr} {addr : Half} {payload : List Byte} {ack : Byte} {crc : Half}
    (hrow : (cmd, i) ∈ responseRows addr payload ack crc) :
    responseInstr cmd addr payload ack crc = some i ∧ encode i = .frame (responseFrame cmd addr payload ack crc) ∧
      i.framePayload = some payload := by
  simp only [responseRows, List.mem_cons, Prod.mk.injEq, List.not_mem_nil, or_false] at hrow
  rcases hrow with h | h | h | h | h | h | h | h | h | h | h | h | h | h | h <;>
    (obtain ⟨rfl, rfl⟩ := h; exact ⟨rfl, rfl, rfl⟩)

theorem mem_requestRows {cmd : Byte} {i : Instr} {addr : Half} {payload : List Byte}
    (h : requestInstr cmd addr payload = some i) : (cmd, i) ∈ requestRows addr payload := by
  have hcmd : BitVec.ofNat 8 cmd.toNat = cmd := countByte_byte_toNat cmd
  unfold requestInstr at h
  split at h
  case h_16 => cases h
  all_goals
    next hc =>
      rw [hc] at hcmd
      obtain rfl := Option.some.inj h
      simp [requestRows, ← hcmd]

theorem mem_responseRows {cmd : Byte} {i : Instr} {addr : Half} {payload : List Byte} {ack : Byte} {crc : Half}
    (h : responseInstr cmd addr payload ack crc = some i) : (cmd, i) ∈ responseRows addr payload ack crc := by
  have hcmd : BitVec.ofNat 8 cmd.toNat = cmd := countByte_byte_toNat cmd
  unfold responseInstr at h
  split at h
  case h_16 => cases h
  all_goals
    next hc =>
      rw [hc] at hcmd
      obtain rfl := Option.some.inj h
      simp [responseRows, ← hcmd]

/-! ## Decoding undoes encoding -/

/-- A code and the issue an agent gives for it spell the same (R48, R49). -/
theorem decodeIssue_issue (c : Code) : decodeIssue c.issue = decode c := by
  cases c with
  | word w => rfl
  | frame f => cases hf : splitRequest f <;> simp [Code.issue, decode, decodeFrame, hf, decodeIssue]

theorem length_le_of_wf {i : Instr} {payload : List Byte} (hp : i.framePayload = some payload) (hwf : i.wf = true) :
    payload.length ≤ 255 := by
  rw [Instr.wf, hp] at hwf
  exact of_decide_eq_true hwf

theorem decode_encode_requestRow {cmd : Byte} {i : Instr} {addr : Half} {payload : List Byte}
    (hrow : (cmd, i) ∈ requestRows addr payload) (hwf : i.wf = true) : decode (encode i) = .ok i := by
  obtain ⟨hi, henc, hp⟩ := requestInstr_of_mem hrow
  have hsplit := splitRequest_requestFrame cmd addr (length_le_of_wf hp hwf)
  simp [henc, decode, decodeFrame, hsplit, decodeBuild, hi]

theorem decode_encode_responseRow {cmd : Byte} {i : Instr} {addr : Half} {payload : List Byte} {ack : Byte}
    {crc : Half} (hrow : (cmd, i) ∈ responseRows addr payload ack crc) (hwf : i.wf = true) :
    decode (encode i) = .ok i := by
  obtain ⟨hi, henc, hp⟩ := responseInstr_of_mem hrow
  have hsplit := splitResponse_responseFrame cmd addr ack crc (length_le_of_wf hp hwf)
  simp [henc, decode, decodeFrame, splitRequest_responseFrame, decodeResponse, hsplit, hi]

/-- An operation word with unused fields zero selects its operation; a frame within its length byte splits back into
the operands of its row. -/
theorem decode_encode (i : Instr) (hwf : i.wf = true) : decode (encode i) = .ok i := by
  cases i using Instr.rowCases with
  | crcInit => exact selects_crcInit 0 0 0
  | crcByte b => exact selects_crcByte 0 b 0
  | txNew cmd addr => exact selects_txNew 0 cmd addr
  | txPush b => exact selects_txPush 0 b 0
  | txBuild => exact selects_txBuild 0 0 0
  | lineTake => exact selects_lineTake 0 0 0
  | rxClr => exact selects_rxClr 0 0 0
  | rxPush b => exact selects_rxPush 0 b 0
  | rxParse => exact selects_rxParse 0 0 0
  | rxPayload => exact selects_rxPayload 0 0 0
  | rd reg => exact selects_rd 0 reg 0
  | rdPl k => exact selects_rdPl 0 k 0
  | errClr => exact selects_errClr 0 0 0
  | request i addr payload hrow => exact hrow.elim fun _ h => decode_encode_requestRow h hwf
  | response i addr payload ack crc hrow => exact hrow.elim fun _ h => decode_encode_responseRow h hwf

end Sys2Proof

namespace Sys2Proof.Machine

open Sys2Proof.Claims

/-! ## What an issue runs -/

theorem exec_txPush (b : Byte) (s : State) : exec (.txPush b) s = .next ((s.stagePush b).finish .ok) := rfl

/-- The issue of an instruction runs the instruction (R7). -/
theorem step_of_issue {s : State} {i : Instr} {rest : List Issue} (hp : s.port = (encode i).issue :: rest)
    (hwf : i.wf = true) : step s = exec i { s with port := rest } :=
  step_of_decodes hp ((decodeIssue_issue _).trans (decode_encode i hwf))

/-- A `LINE.TAKE` issued while the queue holds bytes (R65). -/
theorem step_lineTake {s : State} {b : Byte} {q : List Byte} {rest : List Issue} (hq : s.txQ = b :: q)
    (hp : s.port = (encode .lineTake).issue :: rest) :
    step s = .next { s with txQ := q, result := .byte b, port := rest } := by
  rw [step_of_issue hp rfl]
  simp [exec, execLineTake, State.takeByte, hq, State.finish]

/-- A call of `build` puts its expansion in front of what is issued next (R48). -/
theorem step_of_buildCall {s : State} {cmd : Byte} {addr : Option Half} {payload : Option (List Byte)}
    {rest : List Issue} (hp : s.port = .buildCall cmd addr payload :: rest) :
    step s = .next { s with
      port := issues (buildExpansion cmd (addr.getD 0x0000#16) (payload.getD [0x00#8])) ++ rest } :=
  step_of_undecoded (e := .expands) hp rfl

theorem issues_buildExpansion (cmd : Byte) (addr : Half) (payload : List Byte) :
    issues (buildExpansion cmd addr payload) =
      (encode (.txNew cmd addr)).issue :: (issues (payload.map .txPush) ++
        (encode .txBuild).issue :: issues (List.replicate (7 + payload.length) .lineTake)) := by
  simp [buildExpansion]

/-- `build` of any operands runs the pseudo-instruction, whether or not they spell a row (R44, R48). -/
theorem step_of_build {s : State} {cmd : Byte} {addr : Half} {payload : List Byte} {rest : List Issue}
    (hp : s.port = .build cmd addr payload :: rest) :
    step s = State.buildRequest { s with port := rest } cmd addr payload := by
  cases hi : requestInstr cmd addr payload with
  | none =>
    have hd : decodeIssue (.build cmd addr payload) = .error (.unknownOpcode cmd) := by
      simp [decodeIssue, decodeBuild, hi]
    exact step_of_undecoded hp hd
  | some i =>
    have hd : decodeIssue (.build cmd addr payload) = .ok i := by simp [decodeIssue, decodeBuild, hi]
    rw [step_of_decodes hp hd, exec_requestRow (mem_requestRows hi)]

/-- `parse` of any bytes runs the pseudo-instruction, whether or not they spell a row (R44, R49). -/
theorem step_of_parse {s : State} {bytes : List Byte} {rest : List Issue} (hp : s.port = .parse bytes :: rest) :
    step s = State.parseSequence { s with port := rest } bytes := by
  cases hd : decodeResponse bytes with
  | error e => exact step_of_undecoded hp hd
  | ok i =>
    rw [step_of_decodes hp hd]
    unfold decodeResponse at hd
    split at hd
    next cmd addr payload ack crc hsplit =>
      split at hd
      next i' hi =>
        obtain rfl := Except.ok.inj hd
        rw [exec_responseRow (mem_responseRows hi), responseFrame_of_splitResponse hsplit]
      next => cases hd
    next => cases hd

/-! ## The encoder, case by case (R60, R63) -/

theorem buildBytes_of_unknown {cmd : Byte} (h : inCmdSet cmd = false) (addr : Half) (payload : List Byte) :
    buildBytes cmd addr payload = .error .opcode := by
  simp [buildBytes, h]

theorem buildBytes_of_oversize {cmd : Byte} (h : inCmdSet cmd = true) (addr : Half) {payload : List Byte}
    (hlen : 255 < payload.length) : buildBytes cmd addr payload = .error .oversize := by
  simp [buildBytes, h, Config.maxPayload, Nat.not_le.2 hlen]

theorem buildBytes_of_fits {cmd : Byte} (h : inCmdSet cmd = true) (addr : Half) {payload : List Byte}
    (hlen : payload.length ≤ 255) : buildBytes cmd addr payload = .ok (requestFrame cmd addr payload) := by
  simp [buildBytes, h, Config.maxPayload, hlen]

theorem State.buildFrame_of_unknown {s : State} (h : inCmdSet s.txCmd = false) :
    s.buildFrame = .next (s.raise (.encoding .opcode)) := by
  simp [State.buildFrame, h]

theorem State.buildFrame_of_oversize {s : State} (h : inCmdSet s.txCmd = true) (hcnt : 255 < s.txCnt.toNat) :
    s.buildFrame = .next (s.raise (.encoding .oversize)) := by
  simp [State.buildFrame, h, Config.maxPayload, hcnt]

theorem State.buildFrame_of_staged {s : State} {payload : List Byte} (h : inCmdSet s.txCmd = true)
    (hcnt : s.txCnt.toNat ≤ 255) (hq : s.txQ = []) (hread : s.txBuf.readFrom 0 s.txCnt.toNat = some payload) :
    s.buildFrame = .next { s with txQ := requestFrame s.txCmd s.txAddr payload, result := .ok } := by
  simp [State.buildFrame, h, Config.maxPayload, Nat.not_lt.2 hcnt, hq, hread, State.finish]

/-- `TX.BUILD` over a whole staged payload of at most 255 bytes loads its frame. -/
theorem State.buildFrame_of_ofBytes {s : State} {payload : List Byte} (h : inCmdSet s.txCmd = true) (hq : s.txQ = [])
    (hlen : payload.length ≤ 255) (hcnt : s.txCnt = BitVec.ofNat 9 payload.length)
    (hbuf : s.txBuf = Memory.writeFrom [] 0 payload) :
    s.buildFrame = .next { s with txQ := requestFrame s.txCmd s.txAddr payload, result := .ok } := by
  have hnat : s.txCnt.toNat = payload.length := by
    rw [hcnt, BitVec.toNat_ofNat]; omega
  exact State.buildFrame_of_staged h (hnat ▸ hlen) hq (by rw [hnat, hbuf, Memory.readFrom_ofBytes])

/-- `build` stages its operands before its `TX.BUILD` refuses an unknown opcode, whatever was pushed (R48, R105). -/
theorem State.buildRequest_of_unknown (s : State) {cmd : Byte} (h : inCmdSet cmd = false) (addr : Half)
    (payload : List Byte) : ∃ (cnt : BitVec 9) (buf : Memory), s.buildRequest cmd addr payload =
      .next { s with
        txCmd := cmd, txAddr := addr, txCnt := cnt, txBuf := buf
        err := errOfEncoding .opcode, result := .raised (.encoding .opcode) } := by
  obtain ⟨cnt, buf, -, -, hb⟩ := s.buildRequest_stages cmd addr payload
  exact ⟨cnt, buf, hb.trans (State.buildFrame_of_unknown h)⟩

theorem State.buildRequest_of_oversize (s : State) {cmd : Byte} (h : inCmdSet cmd = true) (addr : Half)
    {payload : List Byte} (hlen : 255 < payload.length) : s.buildRequest cmd addr payload =
      .next { s with
        txCmd := cmd, txAddr := addr, txCnt := 256#9, txBuf := Memory.writeFrom [] 0 (payload.take 255)
        err := errOfEncoding .oversize, result := .raised (.encoding .oversize) } := by
  rw [s.buildRequest_overflow cmd addr payload hlen]
  exact State.buildFrame_of_oversize h (show 255 < (256#9).toNat by decide)

/-- `build` of a known command within its length byte loads its frame into an empty queue (R48, R60). -/
theorem State.buildRequest_of_fits {s : State} (hq : s.txQ = []) {cmd : Byte} (h : inCmdSet cmd = true) (addr : Half)
    {payload : List Byte} (hlen : payload.length ≤ 255) : s.buildRequest cmd addr payload =
      .next { s with
        txCmd := cmd, txAddr := addr, txCnt := BitVec.ofNat 9 payload.length, txBuf := Memory.writeFrom [] 0 payload
        txQ := requestFrame cmd addr payload, result := .ok } := by
  rw [s.buildRequest_eq cmd addr payload hlen]
  exact State.buildFrame_of_ofBytes h hq hlen rfl rfl

/-! ## The decoder's verdict (R70, R73) -/

/-- A length byte counts at most 255, so a response frame has at most 263 bytes (R5, R37). -/
theorem parseBytes_of_overlong {r : List Byte} (h : 263 < r.length) : parseBytes r = .error .length := by
  have hlt := (byteAt r 4).isLt
  have hne : r.length ≠ 8 + (byteAt r 4).toNat := by omega
  have hnil : r ≠ [] := List.length_pos_iff.1 (by omega)
  simp [parseBytes, hnil, Nat.not_lt.2 (show 5 ≤ r.length by omega), hne]

/-- The pseudo-instruction `parse` ends in the verdict on its bytes, of whatever number (R49, R73). -/
theorem State.parseSequence_judges_bytes (s : State) (bytes : List Byte) :
    ∃ (cnt : BitVec 9) (buf : Memory), s.parseSequence bytes =
      .next (State.judge { s with rxCnt := cnt, rxBuf := buf } (parseBytes bytes)) := by
  by_cases hlen : bytes.length ≤ 263
  · exact ⟨_, _, s.parseSequence_eq bytes hlen⟩
  · rw [parseBytes_of_overlong (by omega)]
    exact ⟨_, _, s.parseSequence_overflow bytes (by omega)⟩

theorem frameRegsOf_shows {r : List Byte} {p : ParsedFrame} (h : parseBytes r = .ok p) : (frameRegsOf p).Shows p where
  start_eq := rfl
  cmd_eq := rfl
  addr_eq := rfl
  len_eq := frameRegsOf_len p (parseBytes_ok_payload_length r p h).2
  pl_holds := Memory.read_ofBytes p.payload
  ack_eq := rfl
  crc_eq := rfl

/-! ## Runs of issued operations -/

theorem run_zero (s : State) : Sys2Proof.core.run 0 s = .next s := rfl

theorem run_succ {s t : State} (h : step s = .next t) (k : Nat) :
    Sys2Proof.core.run (k + 1) s = Sys2Proof.core.run k t := by
  have hstep : Sys2Proof.core.step s = .next t := h
  simp only [Host.Core.run, hstep]

/-- A run goes on from where its first part ends. -/
theorem run_add {s t : State} {m : Nat} (h : Sys2Proof.core.run m s = .next t) (n : Nat) :
    Sys2Proof.core.run (m + n) s = Sys2Proof.core.run n t := by
  induction m generalizing s with
  | zero =>
    obtain rfl : s = t := Host.Outcome.next.inj h
    rw [Nat.zero_add]
  | succ m ih =>
    cases hs : step s with
    | next s' =>
      rw [run_succ hs] at h
      rw [Nat.add_right_comm, run_succ hs, ih h]
    | fault r =>
      have hstep : Sys2Proof.core.step s = .fault r := hs
      simp [Host.Core.run, hstep] at h
    | refused r =>
      have hstep : Sys2Proof.core.step s = .refused r := hs
      simp [Host.Core.run, hstep] at h

/-- Staging reads and writes neither `result` nor `port`. -/
theorem State.stagePush_withOutcome (s : State) (b : Byte) (r : Result) (q : List Issue) :
    State.stagePush { s with result := r, port := q } b = { s.stagePush b with result := r, port := q } := by
  unfold State.stagePush
  split_ifs <;> rfl

theorem State.stagePushes_withOutcome (s : State) (bytes : List Byte) (r : Result) (q : List Issue) :
    bytes.foldl State.stagePush { s with result := r, port := q } =
      { bytes.foldl State.stagePush s with result := r, port := q } := by
  induction bytes generalizing s with
  | nil => rfl
  | cons b bs ih => rw [List.foldl_cons, State.stagePush_withOutcome, ih, List.foldl_cons]

/-- The `TX.PUSH`es of a payload stage it byte by byte (R62). -/
theorem run_txPushes {s : State} {bytes : List Byte} {rest : List Issue}
    (hp : s.port = issues (bytes.map .txPush) ++ rest) :
    ∃ r, Sys2Proof.core.run bytes.length s =
      .next { bytes.foldl State.stagePush s with result := r, port := rest } := by
  induction bytes generalizing s with
  | nil =>
    obtain rfl : s.port = rest := hp
    exact ⟨s.result, rfl⟩
  | cons b bs ih =>
    have hstep : step s = .next { s.stagePush b with result := .ok, port := issues (bs.map .txPush) ++ rest } := by
      rw [step_of_issue (i := .txPush b) hp rfl, exec_txPush, State.stagePush_withOutcome]
      rfl
    obtain ⟨r, hrun⟩ := ih (s := { s.stagePush b with result := .ok, port := issues (bs.map .txPush) ++ rest }) rfl
    rw [State.stagePushes_withOutcome] at hrun
    exact ⟨r, (run_succ hstep bs.length).trans hrun⟩

/-- The `TX.NEW`, `TX.PUSH`es and `TX.BUILD` of a known command put its frame into an empty queue (R48, R64). -/
theorem run_staging {s : State} {cmd : Byte} {addr : Half} {payload : List Byte} {rest : List Issue} (hq : s.txQ = [])
    (hcmd : inCmdSet cmd = true) (hlen : payload.length ≤ 255)
    (hp : s.port = (encode (.txNew cmd addr)).issue ::
      (issues (payload.map .txPush) ++ (encode .txBuild).issue :: rest)) :
    Sys2Proof.core.run (payload.length + 2) s = .next { s with
      txCmd := cmd, txAddr := addr, txCnt := BitVec.ofNat 9 payload.length, txBuf := Memory.writeFrom [] 0 payload
      txQ := requestFrame cmd addr payload, result := .ok, port := rest } := by
  have hnew : step s = .next { s.stageNew cmd addr with
      result := .ok, port := issues (payload.map .txPush) ++ (encode .txBuild).issue :: rest } :=
    step_of_issue hp rfl
  obtain ⟨r, hpush⟩ := run_txPushes (s := { s.stageNew cmd addr with
    result := .ok, port := issues (payload.map .txPush) ++ (encode .txBuild).issue :: rest }) rfl
  rw [State.stagePushes_withOutcome, State.stageAll s cmd addr payload hlen] at hpush
  rw [run_succ hnew, run_add hpush 1]
  refine (run_succ ?_ 0).trans (run_zero _)
  rw [step_of_issue (i := .txBuild) rfl rfl]
  exact State.buildFrame_of_ofBytes hcmd hq hlen rfl rfl

/-- A call of `build` comes to its `LINE.TAKE`s after its expansion and the operations that stage and build. -/
theorem run_buildCall {s : State} {cmd : Byte} {addr : Option Half} {payload : Option (List Byte)} {rest : List Issue}
    (hp : s.port = .buildCall cmd addr payload :: rest) (hq : s.txQ = []) (hcmd : inCmdSet cmd = true)
    (hlen : (payload.getD [0x00#8]).length ≤ 255) :
    Sys2Proof.core.run ((payload.getD [0x00#8]).length + 2 + 1) s = .next { s with
      txCmd := cmd, txAddr := addr.getD 0x0000#16
      txCnt := BitVec.ofNat 9 (payload.getD [0x00#8]).length
      txBuf := Memory.writeFrom [] 0 (payload.getD [0x00#8])
      txQ := requestFrame cmd (addr.getD 0x0000#16) (payload.getD [0x00#8]), result := .ok
      port := issues (List.replicate (7 + (payload.getD [0x00#8]).length) .lineTake) ++ rest } := by
  rw [run_succ (step_of_buildCall hp)]
  exact run_staging hq hcmd hlen (by rw [issues_buildExpansion]; simp)

/-- The `LINE.TAKE` number `n` returns byte `n` of the queue (R65, R31). -/
theorem run_lineTakes {s : State} {n : Nat} {b : Byte} {rest : List Issue} (hb : s.txQ[n]? = some b)
    (hp : s.port = issues (List.replicate (n + 1) .lineTake) ++ rest) :
    Sys2Proof.core.run (n + 1) s = .next { s with txQ := s.txQ.drop (n + 1), result := .byte b, port := rest } := by
  induction n generalizing s with
  | zero =>
    obtain ⟨q, hq⟩ : ∃ q, s.txQ = b :: q := List.head?_eq_some_iff.1 (List.head?_eq_getElem? ▸ hb)
    rw [run_succ (step_lineTake hq hp), run_zero, hq]
    rfl
  | succ n ih =>
    cases hq : s.txQ with
    | nil => simp [hq] at hb
    | cons c q =>
      rw [hq, List.getElem?_cons_succ] at hb
      rw [run_succ (step_lineTake hq hp), ih hb rfl]
      rfl

end Sys2Proof.Machine

namespace Sys2Proof.Proofs

open Sys2Proof.Machine Sys2Proof.Claims

/-! ## The statements -/

/-- Settles O37: an issue spells what its code does, and the code decodes to its instruction. -/
theorem decodeUndoesEncode : Obligations.DecodeUndoesEncode :=
  fun i hwf => ⟨decode_encode i hwf, (decodeIssue_issue _).trans (decode_encode i hwf)⟩

/-- Settles O35: what each `OP` selects depends on the fields `A` and `B` alone. -/
theorem wordsDecodeByTheirOperationField : Obligations.WordsDecodeByTheirOperationField := by
  intro x a b
  have hillegal : ∀ op ∈ [0x0#4, 0xE#4, 0xF#4], decodeWord (op ++ x ++ a ++ b) = .error (.illegalOp op) :=
    fun op hop => by
      have hop' : opField (op ++ x ++ a ++ b) = op := opField_append op x a b
      rw [decodeWord_of_illegal (hop'.symm ▸ hop), hop']
  exact ⟨hillegal _ (by decide), selects_crcInit x a b, selects_crcByte x a b, selects_txNew x a b,
    selects_txPush x a b, selects_txBuild x a b, selects_lineTake x a b, selects_rxClr x a b, selects_rxPush x a b,
    selects_rxParse x a b, selects_rxPayload x a b, selects_rd x a b, selects_rdPl x a b, selects_errClr x a b,
    hillegal _ (by decide), hillegal _ (by decide)⟩

/-- Settles O49: each pseudo-instruction runs whole, and each of its outcomes is one of its function's. -/
theorem pseudoInstructionsAgreeWithTheFunctions : Obligations.PseudoInstructionsAgreeWithTheFunctions := by
  intro s rest
  refine ⟨fun cmd addr payload hp hq => ?build, fun r hp => ?parse⟩
  case build =>
    rw [step_of_build hp]
    cases hcmd : inCmdSet cmd with
    | false =>
      obtain ⟨cnt, buf, hb⟩ := State.buildRequest_of_unknown { s with port := rest } hcmd addr payload
      rw [buildBytes_of_unknown hcmd, hb]
      exact ⟨_, rfl, rfl, rfl, hq, rfl⟩
    | true =>
      rcases Nat.lt_or_ge 255 payload.length with hlen | hlen
      · rw [buildBytes_of_oversize hcmd addr hlen, State.buildRequest_of_oversize _ hcmd addr hlen]
        exact ⟨_, rfl, rfl, rfl, hq, rfl⟩
      · have hb := State.buildRequest_of_fits (s := { s with port := rest }) hq hcmd addr hlen
        rw [buildBytes_of_fits hcmd addr hlen, hb]
        exact ⟨_, rfl, rfl, rfl, rfl, rfl⟩
  case parse =>
    obtain ⟨cnt, buf, hj⟩ := State.parseSequence_judges_bytes { s with port := rest } r
    rw [step_of_parse hp, hj]
    refine ⟨_, rfl, ?_⟩
    cases hv : parseBytes r with
    | error c =>
      have hc : c ≠ .payload := fun h => parseBytes_ne_payload r (h ▸ hv)
      rw [State.judge, State.raise_decoding _ c hc]
      exact ⟨rfl, rfl, rfl, errAfter_decoding c s.err⟩
    | ok p => exact ⟨rfl, rfl, rfl, _, rfl, frameRegsOf_shows hv⟩

/-- Settles O51: the expansion stages the operands and builds, so that its `LINE.TAKE`s find the frame in the queue. -/
theorem buildCallCollectsItsFrame : Obligations.BuildCallCollectsItsFrame := by
  intro s cmd addr payload rest hp hq hcmd a p frame hlen n hn
  obtain ⟨b, hb⟩ : ∃ b, frame[n]? = some b :=
    ⟨_, List.getElem?_eq_getElem (hn.trans_eq (requestFrame_length cmd a p).symm)⟩
  have htakes : issues (List.replicate (7 + p.length) .lineTake) ++ rest =
      issues (List.replicate (n + 1) .lineTake) ++
        (List.replicate (6 + p.length - n) (.word 0x60000000#32) ++ rest) := by
    rw [show 7 + p.length = (n + 1) + (6 + p.length - n) by omega, List.replicate_add, issues_append,
      List.append_assoc, issues_replicate (6 + p.length - n)]
    rfl
  have hrun := (run_add (run_buildCall hp hq hcmd hlen) (n + 1)).trans (run_lineTakes hb htakes)
  rw [show p.length + 2 + 1 + (n + 1) = p.length + 4 + n by omega] at hrun
  exact ⟨_, b, hrun, hb, rfl, Memory.read_ofBytes p⟩

/-- Settles O8: the first and the last list are the tests of the model; that the second is too is checked for each of
the 256 bytes. -/
theorem knownCodesAreTheListedOnes : Obligations.KnownCodesAreTheListedOnes :=
  ⟨fun b => by simp [inCmdSet], by decide, fun b => by simp [inAckSet, ackCodes]⟩

/-- Settles O36: the operation field alone decides, and a UsageFault changes only the outcome delivered. -/
theorem illegalWordsChangeNoState : Obligations.IllegalWordsChangeNoState := by
  refine ⟨fun w => ⟨?illegal, decodeWord_of_legal⟩, fun s w rest hp hop => ?step⟩
  case illegal =>
    rintro ⟨i, hi⟩ hop
    simp [decodeWord_of_illegal hop] at hi
  case step =>
    rw [step_of_undecoded hp (decodeWord_of_illegal hop)]
    rfl

/-- Settles O38, by evaluating the decoder. -/
theorem writtenOutCodesDecode : Obligations.WrittenOutCodesDecode :=
  ⟨rfl, rfl, rfl, rfl, rfl⟩

/-- Settles O50: a call decodes to no single row, and its expansion is issued in front of what remains. -/
theorem buildCallExpandsToItsOperations : Obligations.BuildCallExpandsToItsOperations := by
  intro s cmd addr payload rest hp a p
  rw [step_of_buildCall hp, issues_buildExpansion, issues_replicate, issues, List.map_map]
  simp only [List.cons_append, List.append_assoc]
  rfl

end Sys2Proof.Proofs

/-! PROOFS of the family 40_crc.md. Three facts about one pass of R53's loop carry everything: it is linear, only zero
passes to zero, and a message bit may meet bit 15 just before the pass instead of with its whole byte. So the CRC of a
sequence is that of the stream of its bits, and a stream of 16 bits meets the register as one word. -/

namespace Sys2Proof.Machine

open Sys2Proof.Claims

/-! ## One pass and eight passes of the loop (R53) -/

theorem xor_interchange (p q r t : Half) : (p ^^^ q) ^^^ (r ^^^ t) = (p ^^^ r) ^^^ (q ^^^ t) := by ac_rfl

theorem shiftLeft_two_bytes (x : Half) : (x <<< 8) <<< 8 = 0#16 := by
  rw [← BitVec.shiftLeft_add]
  exact BitVec.shiftLeft_eq_zero (by decide)

theorem crcShift8_eq_iterate (c : Half) : crcShift8 c = crcShift^[8] c := rfl

theorem crcShift_xor (x y : Half) : crcShift (x ^^^ y) = crcShift x ^^^ crcShift y := by
  unfold crcShift
  rw [BitVec.getLsbD_xor, BitVec.shiftLeft_xor_distrib]
  cases x.getLsbD 15 <;> cases y.getLsbD 15
  · rfl
  · exact BitVec.xor_assoc ..
  · change (x <<< 1 ^^^ y <<< 1) ^^^ Config.crcPoly = (x <<< 1 ^^^ Config.crcPoly) ^^^ y <<< 1
    ac_rfl
  · change x <<< 1 ^^^ y <<< 1 = (x <<< 1 ^^^ Config.crcPoly) ^^^ (y <<< 1 ^^^ Config.crcPoly)
    rw [xor_interchange, BitVec.xor_self, BitVec.xor_zero]

theorem crcShift_iterate_xor (n : Nat) (x y : Half) :
    crcShift^[n] (x ^^^ y) = crcShift^[n] x ^^^ crcShift^[n] y := by
  induction n generalizing x y with
  | zero => rfl
  | succ n ih => simp only [Function.iterate_succ_apply, crcShift_xor, ih]

/-- The constant term of the polynomial marks bit 0 of every pass that drops a one. -/
theorem crcShift_eq_zero_iff (c : Half) : crcShift c = 0#16 ↔ c = 0#16 := by
  refine ⟨fun h => ?_, fun h => by rw [h]; rfl⟩
  unfold crcShift at h
  split at h
  next =>
    have hbit : ((c <<< 1) ^^^ Config.crcPoly).getLsbD 0 = true := by simp [Config.crcPoly]
    simp [h] at hbit
  next htop =>
    refine BitVec.eq_of_getLsbD_eq fun i hi => ?_
    obtain rfl | hlt : i = 15 ∨ i < 15 := by omega
    · simpa using htop
    · have hbit : (c <<< 1).getLsbD (i + 1) = false := by simp [h]
      simpa [show i + 1 < 16 by omega, BitVec.getLsbD_eq_getElem hi] using hbit

theorem crcShift_iterate_eq_zero_iff (n : Nat) (c : Half) : crcShift^[n] c = 0#16 ↔ c = 0#16 := by
  induction n with
  | zero => rfl
  | succ n ih => rw [Function.iterate_succ_apply', crcShift_eq_zero_iff, ih]

/-! ## The bit-serial form (R53) -/

/-- The register after one message bit, in the bit-serial form of R53. -/
def crcBit (c : Half) (d : Bool) : Half :=
  if c.getLsbD 15 ^^ d then (c <<< 1) ^^^ Config.crcPoly else c <<< 1

/-- The register after the first `n` bits of the stream `w`, from `c`. -/
def crcBits (c : Half) (w : Nat → Bool) : Nat → Half
  | 0 => c
  | n + 1 => crcBit (crcBits c w n) (w n)

theorem crcBits_succ (c : Half) (w : Nat → Bool) (n : Nat) : crcBits c w (n + 1) = crcBit (crcBits c w n) (w n) := rfl

theorem crcBit_false (c : Half) : crcBit c false = crcShift c := by simp [crcBit, crcShift]

/-- A register that already holds the message word `y` is passed on as if only the top bit of `y` had been fed. -/
theorem crcBit_xor_top (x y : Half) : crcBit (x ^^^ y) (y.getLsbD 15) = crcShift x ^^^ (y <<< 1) := by
  unfold crcBit crcShift
  rw [BitVec.getLsbD_xor, Bool.xor_assoc, Bool.xor_self, Bool.xor_false, BitVec.shiftLeft_xor_distrib]
  split
  · ac_rfl
  · rfl

/-- Feeding a word bit by bit, highest bit first, is adding it to the register at once and taking away the bits not yet
fed. -/
theorem crcBits_word (c v : Half) (n : Nat) : crcBits c v.getMsbD n = crcShift^[n] (c ^^^ v) ^^^ (v <<< n) := by
  induction n with
  | zero => simp [crcBits]
  | succ n ih =>
    have hbit : v.getMsbD n = (v <<< n).getLsbD 15 := by
      rw [BitVec.getLsbD_shiftLeft, BitVec.getMsbD]
      by_cases hn : n < 16
      · simp [hn, show ¬ 15 < n by omega]
      · simp [hn, show 15 < n by omega]
    rw [crcBits_succ, ih, hbit, crcBit_xor_top, Function.iterate_succ_apply', BitVec.shiftLeft_add]

theorem crcBits_congr {c : Half} {w w' : Nat → Bool} {n : Nat} (h : ∀ i < n, w i = w' i) :
    crcBits c w n = crcBits c w' n := by
  induction n with
  | zero => rfl
  | succ n ih => rw [crcBits_succ, crcBits_succ, ih fun i hi => h i (by omega), h n (by omega)]

theorem crcBits_add (c : Half) (w : Nat → Bool) (m n : Nat) :
    crcBits c w (m + n) = crcBits (crcBits c w m) (fun i => w (m + i)) n := by
  induction n with
  | zero => rfl
  | succ n ih => rw [← Nat.add_assoc, crcBits_succ, crcBits_succ, ih]

/-- A byte in the high half of the register is its eight bits, bit 7 first. -/
theorem crcStep_eq_crcBits (c : Half) (b : Byte) : crcStep c b = crcBits c b.getMsbD 8 := by
  have hbits : ∀ i < 8, b.getMsbD i = (b.setWidth 16 <<< 8).getMsbD i := fun i hi => by
    simp [BitVec.getMsbD, hi, show i < 16 by omega, show 15 - i < 16 by omega, show ¬ 15 - i < 8 by omega,
      show 15 - i - 8 = 7 - i by omega]
  rw [crcBits_congr hbits, crcBits_word, shiftLeft_two_bytes, BitVec.xor_zero]
  rfl

/-- The bit-serial form as R53 writes it out. -/
theorem crcStep_eq_foldl (c : Half) (b : Byte) :
    crcStep c b = [7, 6, 5, 4, 3, 2, 1, 0].foldl
      (fun (x : Half) k => if x.getLsbD 15 ^^ b.getLsbD k then (x <<< 1) ^^^ 0x1021#16 else x <<< 1) c :=
  crcStep_eq_crcBits c b

/-! ## Laws of `crc_step` and of the loop over a sequence (R52, R57) -/

theorem crcStep_xor (c₁ c₂ : Half) (b₁ b₂ : Byte) :
    crcStep (c₁ ^^^ c₂) (b₁ ^^^ b₂) = crcStep c₁ b₁ ^^^ crcStep c₂ b₂ := by
  simp only [crcStep, crcShift8_eq_iterate]
  rw [BitVec.setWidth_xor, BitVec.shiftLeft_xor_distrib, xor_interchange, crcShift_iterate_xor]

/-- A register that is fed its own high byte is shifted by that byte. -/
theorem crcStep_own_high_byte (c : Half) : crcStep c (c.extractLsb' 8 8) = c <<< 8 := by
  have hbits : ∀ i < 8, (c.extractLsb' 8 8).getMsbD i = c.getMsbD i := fun i hi => by
    simp [BitVec.getMsbD, hi, show i < 16 by omega, show 7 - i < 8 by omega, show 8 + (7 - i) = 15 - i by omega]
  rw [crcStep_eq_crcBits, crcBits_congr hbits, crcBits_word, BitVec.xor_self,
    (crcShift_iterate_eq_zero_iff 8 _).2 rfl, BitVec.zero_xor]

theorem crcStep_eq_table (c : Half) (b : Byte) :
    crcStep c b = (c <<< 8) ^^^ crcStep 0#16 (c.extractLsb' 8 8 ^^^ b) := by
  calc crcStep c b
      = crcStep (c ^^^ 0#16) (c.extractLsb' 8 8 ^^^ (c.extractLsb' 8 8 ^^^ b)) := by
        rw [BitVec.xor_zero, ← BitVec.xor_assoc, BitVec.xor_self, BitVec.zero_xor]
    _ = (c <<< 8) ^^^ crcStep 0#16 (c.extractLsb' 8 8 ^^^ b) := by rw [crcStep_xor, crcStep_own_high_byte]

theorem crcFrom_cons (c : Half) (b : Byte) (s : List Byte) : crcFrom c (b :: s) = crcFrom (crcStep c b) s := rfl

theorem crcFrom_append (c : Half) (s t : List Byte) : crcFrom c (s ++ t) = crcFrom (crcFrom c s) t :=
  List.foldl_append

theorem crcFrom_corrupt {s e : List Byte} (h : s.length = e.length) (c₁ c₂ : Half) :
    crcFrom (c₁ ^^^ c₂) (corrupt s e) = crcFrom c₁ s ^^^ crcFrom c₂ e := by
  induction s generalizing e c₁ c₂ with
  | nil =>
    obtain rfl : e = [] := List.eq_nil_of_length_eq_zero h.symm
    rfl
  | cons b s ih =>
    cases e with
    | nil => simp at h
    | cons d e =>
      rw [crcFrom_cons, crcFrom_cons, ← ih (Nat.succ.inj h), ← crcStep_xor]
      rfl

theorem crc16_corrupt {s e : List Byte} (h : s.length = e.length) :
    crc16 (corrupt s e) = crc16 s ^^^ crc16 e :=
  crcFrom_corrupt h 0#16 0#16

/-- The two bytes of its own value, high byte first, shift a register out. -/
theorem crc16_closed (s : List Byte) : crc16 (closed s (crc16 s)) = 0#16 := by
  have hlow : (crc16 s).extractLsb' 0 8 = (crc16 s <<< 8).extractLsb' 8 8 := by
    ext i hi
    simp [show 8 + i < 16 by omega, ← BitVec.getLsbD_eq_getElem]
  calc crc16 (closed s (crc16 s))
      = crcStep (crcStep (crc16 s) ((crc16 s).extractLsb' 8 8)) ((crc16 s).extractLsb' 0 8) := crcFrom_append ..
    _ = (crc16 s <<< 8) <<< 8 := by rw [crcStep_own_high_byte, hlow, crcStep_own_high_byte]
    _ = 0#16 := shiftLeft_two_bytes _

/-! ## The CRC of a sequence as that of its bits, and bursts in it (R26, R57) -/

theorem wireBit_of_le {e : List Byte} {i : Nat} (h : 8 * e.length ≤ i) : wireBit e i = false := by
  have hout : e[i / 8]? = none := List.getElem?_eq_none (by omega)
  simp [wireBit, byteAt, List.getD, hout]

theorem wireBit_append_left {s t : List Byte} {i : Nat} (h : i < 8 * s.length) : wireBit (s ++ t) i = wireBit s i := by
  unfold wireBit byteAt
  rw [List.getD_append _ _ _ _ (by omega)]

theorem wireBit_append_byte (s : List Byte) (b : Byte) {i : Nat} (h : i < 8) :
    wireBit (s ++ [b]) (8 * s.length + i) = b.getMsbD i := by
  have hdiv : (8 * s.length + i) / 8 = s.length := by omega
  have hmod : (8 * s.length + i) % 8 = i := by omega
  simp [wireBit, byteAt, hdiv, hmod, BitVec.getMsbD, h]

theorem crc16_eq_crcBits (e : List Byte) : crc16 e = crcBits 0#16 (wireBit e) (8 * e.length) := by
  induction e using List.reverseRecOn with
  | nil => rfl
  | append_singleton s b ih =>
    calc crc16 (s ++ [b])
        = crcStep (crc16 s) b := crcFrom_append ..
      _ = crcBits (crcBits 0#16 (wireBit (s ++ [b])) (8 * s.length)) b.getMsbD 8 := by
        rw [crcStep_eq_crcBits, ih, crcBits_congr fun i hi => wireBit_append_left hi]
      _ = crcBits 0#16 (wireBit (s ++ [b])) (8 * (s ++ [b]).length) := by
        rw [List.length_append, List.length_singleton, Nat.mul_add, crcBits_add,
          crcBits_congr fun i hi => wireBit_append_byte s b hi]

/-- While no bit of the stream is set, the register stays zero or stays other than zero. -/
theorem crcBits_eq_zero_of_silent {c : Half} {w : Nat → Bool} {m : Nat} (h : ∀ i, m ≤ i → w i = false) (n : Nat) :
    crcBits c w (m + n) = 0#16 ↔ crcBits c w m = 0#16 := by
  induction n with
  | zero => rfl
  | succ n ih => rw [← Nat.add_assoc, crcBits_succ, h _ (by omega), crcBit_false, crcShift_eq_zero_iff, ih]

theorem crcBits_zero_of_silent {w : Nat → Bool} {k : Nat} (h : ∀ i < k, w i = false) : crcBits 0#16 w k = 0#16 := by
  rw [crcBits_congr (w' := fun _ => false) h, ← Nat.zero_add k]
  exact (crcBits_eq_zero_of_silent (fun _ _ => rfl) k).2 rfl

/-- The first sixteen bits of a stream as one word, highest bit first. -/
def firstWord (w : Nat → Bool) : Half :=
  BitVec.ofFnBE fun j : Fin 16 => w j

theorem getMsbD_firstWord (w : Nat → Bool) {j : Nat} (h : j < 16) : (firstWord w).getMsbD j = w j := by
  simp [firstWord, BitVec.getMsbD_ofFnBE, h]

/-- Sixteen bits that take the register from zero to zero are sixteen zeros. -/
theorem eq_false_of_crcBits_eq_zero {w : Nat → Bool} (h : crcBits 0#16 w 16 = 0#16) {i : Nat} (hi : i < 16) :
    w i = false := by
  have hbits : ∀ j < 16, w j = (firstWord w).getMsbD j := fun j hj => (getMsbD_firstWord w hj).symm
  have hout : firstWord w <<< 16 = 0#16 := BitVec.shiftLeft_eq_zero (Nat.le_refl 16)
  rw [crcBits_congr hbits, crcBits_word, hout, BitVec.xor_zero, crcShift_iterate_eq_zero_iff, BitVec.zero_xor] at h
  rw [hbits i hi, h, BitVec.getMsbD_zero]

/-- A sequence whose set bits lie within 16 consecutive bits, one of them at least, has a CRC other than zero. -/
theorem crc16_ne_zero_of_burst {e : List Byte} {k i : Nat} (hset : wireBit e i = true)
    (hburst : ∀ j, wireBit e j = true → k ≤ j ∧ j < k + 16) : crc16 e ≠ 0#16 := by
  have hsilent : ∀ j, j < k ∨ k + 16 ≤ j → wireBit e j = false := fun j hj =>
    Bool.eq_false_iff.2 fun ht => by have := hburst j ht; omega
  intro hzero
  have hlong : crcBits 0#16 (wireBit e) (8 * e.length + (k + 16)) = 0#16 :=
    (crcBits_eq_zero_of_silent (fun j hj => wireBit_of_le hj) _).2 ((crc16_eq_crcBits e).symm.trans hzero)
  have hend : crcBits 0#16 (wireBit e) (k + 16) = 0#16 := by
    rw [Nat.add_comm] at hlong
    exact (crcBits_eq_zero_of_silent (fun j hj => hsilent j (.inr hj)) _).1 hlong
  rw [crcBits_add, crcBits_zero_of_silent fun j hj => hsilent j (.inl hj)] at hend
  obtain ⟨hlo, hhi⟩ := hburst i hset
  have hclear : wireBit e (k + (i - k)) = false :=
    eq_false_of_crcBits_eq_zero (w := fun j => wireBit e (k + j)) hend (by omega)
  rw [Nat.add_sub_cancel' hlo, hset] at hclear
  exact Bool.noConfusion hclear

/-! ## The operations of the CRC generator (R54, R55) -/

theorem exec_crcInit (s : State) : exec .crcInit s = .next { s with crc := 0#16, result := .ok } := rfl

theorem exec_crcByte (b : Byte) (s : State) :
    exec (.crcByte b) s = .next { s with crc := crcStep s.crc b, result := .ok } := rfl

/-- The `CRC.BYTE`s of a sequence feed it byte by byte (R55). -/
theorem run_crcBytes {s : State} {bytes : List Byte} {rest : List Issue} (hr : s.result = .ok)
    (hp : s.port = issues (bytes.map .crcByte) ++ rest) :
    Sys2Proof.core.run bytes.length s = .next { s with crc := crcFrom s.crc bytes, port := rest } := by
  induction bytes generalizing s with
  | nil =>
    obtain rfl : s.port = rest := hp
    rfl
  | cons b bs ih =>
    have hstep : step s = .next { s with
        crc := crcStep s.crc b, result := .ok, port := issues (bs.map .crcByte) ++ rest } :=
      step_of_issue (i := .crcByte b) hp rfl
    rw [List.length_cons, run_succ hstep, ih rfl rfl, crcFrom_cons, hr]

end Sys2Proof.Machine

namespace Sys2Proof.Proofs

open Sys2Proof.Machine Sys2Proof.Claims

/-! ## The statements -/

/-- Settles O1: the loop is the definition; the bit-serial form feeds the byte's bits one by one; the table form splits
off the step in which the register is fed its own high byte. -/
theorem crcStepHasThreeEqualForms : Obligations.CrcStepHasThreeEqualForms :=
  fun c b => ⟨rfl, crcStep_eq_foldl c b, crcStep_eq_table c b⟩

/-- Settles O4: `CRC.INIT`, then by induction on the bytes. -/
theorem streamedBytesGiveCrc16 : Obligations.StreamedBytesGiveCrc16 := by
  intro s bytes rest hp
  have hinit : step s = .next { s with
      crc := 0#16, result := .ok, port := issues (bytes.map .crcByte) ++ rest } :=
    step_of_issue (i := .crcInit) hp rfl
  rw [run_succ hinit, run_crcBytes rfl rfl]
  rfl

/-- Settles O5. -/
theorem crcStepIsLinear : Obligations.CrcStepIsLinear :=
  crcStep_xor

/-- Settles O6: a zero byte leaves the initial register as it is, and a register that is fed its own two bytes is
shifted out. -/
theorem crcResidueIsZero : Obligations.CrcResidueIsZero :=
  fun s => ⟨rfl, crc16_closed s⟩

/-- Settles O7: by linearity the residue is the CRC of the change, which is a burst from a zero register. -/
theorem burstsUpToSixteenBitsAreDetected : Obligations.BurstsUpToSixteenBitsAreDetected := by
  intro s e k hlen ⟨i, _, hset⟩ hburst
  have hburst' : ∀ j, wireBit e j = true → k ≤ j ∧ j < k + 16 := fun j hj => by
    refine hburst j (Nat.lt_of_not_le fun hout => ?_) hj
    simp [wireBit_of_le hout] at hj
  have hclosed : (closed s (crc16 s)).length = e.length := by simp [closed, hlen]
  rw [crc16_corrupt hclosed, crc16_closed, BitVec.zero_xor]
  exact crc16_ne_zero_of_burst hset hburst'

/-- Settles O2. -/
theorem crcInitClearsOnlyTheAccumulator : Obligations.CrcInitClearsOnlyTheAccumulator :=
  ⟨selects_crcInit, exec_crcInit⟩

/-- Settles O3, by the bit-serial form of the step. -/
theorem crcByteFeedsOneByte : Obligations.CrcByteFeedsOneByte :=
  fun b s => by rw [exec_crcByte, crcStep_eq_foldl]

end Sys2Proof.Proofs

/-! PROOFS of the family 41_encoder.md. First the rules the proofs cite: what each operation of the encoder does, what
every other instruction leaves to it, and runs of its operations; then the statements. -/

namespace Sys2Proof.Machine

open Sys2Proof.Claims

/-! ## `TX.BUILD` and `LINE.TAKE`, case by case (R63, R65) -/

/-- The model's layout is the one written out from R36. -/
theorem requestFrame_eq_closed (cmd : Byte) (addr : Half) (payload : List Byte) :
    requestFrame cmd addr payload =
      closed (requestBytes cmd addr payload) (crc16 (requestBytes cmd addr payload)) := rfl

theorem State.buildFrame_of_busy {s : State} (h : inCmdSet s.txCmd = true) (hcnt : s.txCnt.toNat ≤ 255)
    (hq : s.txQ ≠ []) : s.buildFrame = .next (s.hold .busy) := by
  simp [State.buildFrame, h, Config.maxPayload, Nat.not_lt.2 hcnt, hq]

theorem State.takeByte_of_nil {s : State} (hq : s.txQ = []) : s.takeByte = s.hold .empty := by
  simp [State.takeByte, hq]

theorem State.takeByte_of_cons {s : State} {b : Byte} {q : List Byte} (hq : s.txQ = b :: q) :
    s.takeByte = { s with txQ := q, result := .byte b } := by
  simp [State.takeByte, hq, State.finish]

/-- A range of reads sees only the indices of the range. -/
theorem Memory.readFrom_of_read_eq {m₁ m₂ : Memory} {n : Nat} {bytes : List Byte}
    (hread : ∀ i, i < n → m₁.read i = m₂.read i) (h : m₁.readFrom 0 n = some bytes) :
    m₂.readFrom 0 n = some bytes := by
  obtain ⟨hlen, hbytes⟩ := (Memory.readFrom_eq_some_iff _ _ _ _).1 h
  refine (Memory.readFrom_eq_some_iff _ _ _ _).2 ⟨hlen, fun k hk => ?_⟩
  rw [← hbytes k hk, hread (0 + k) (by omega)]

/-- `TX.BUILD` over an empty queue reads the staged operands only (R66). -/
theorem State.buildFrame_of_sameStaging {s₁ s₂ t₁ : State} (hq₁ : s₁.txQ = []) (hq₂ : s₂.txQ = [])
    (hcmd : s₁.txCmd = s₂.txCmd) (haddr : s₁.txAddr = s₂.txAddr) (hcnt : s₁.txCnt = s₂.txCnt)
    (hread : ∀ i, i < s₁.txCnt.toNat → s₁.txBuf.read i = s₂.txBuf.read i) (h : s₁.buildFrame = .next t₁) :
    ∃ t₂, s₂.buildFrame = .next t₂ ∧ t₂.txQ = t₁.txQ ∧ t₂.result = t₁.result := by
  rcases s₁.buildFrame_next t₁ h with
    ⟨hset, rfl⟩ | ⟨hset, hlt, rfl⟩ | ⟨-, -, hne, -⟩ | ⟨hset, hle, -, payload, hp, rfl⟩
  · exact ⟨_, State.buildFrame_of_unknown (hcmd ▸ hset), by simp [hq₁, hq₂], by simp⟩
  · exact ⟨_, State.buildFrame_of_oversize (hcmd ▸ hset) (hcnt ▸ hlt), by simp [hq₁, hq₂], by simp⟩
  · exact absurd hq₁ hne
  · have hp₂ := Memory.readFrom_of_read_eq hread hp
    rw [hcnt] at hp₂
    exact ⟨_, State.buildFrame_of_staged (hcmd ▸ hset) (hcnt ▸ hle) hq₂ hp₂, by simp [hcmd, haddr], rfl⟩

/-- The pseudo-instruction `build` over an empty queue ends as `build_bytes` does (R48, R60). -/
theorem State.buildRequest_agrees {s : State} (hq : s.txQ = []) (cmd : Byte) (addr : Half) (payload : List Byte) :
    ∃ t, s.buildRequest cmd addr payload = .next t ∧
      match buildBytes cmd addr payload with
      | .ok frame => t.result = .ok ∧ t.txQ = frame
      | .error c => t.result = .raised (.encoding c) ∧ t.txQ = [] := by
  cases hcmd : inCmdSet cmd with
  | false =>
    obtain ⟨cnt, buf, hb⟩ := s.buildRequest_of_unknown hcmd addr payload
    rw [buildBytes_of_unknown hcmd]
    exact ⟨_, hb, rfl, hq⟩
  | true =>
    rcases Nat.lt_or_ge 255 payload.length with hlen | hlen
    · rw [buildBytes_of_oversize hcmd addr hlen]
      exact ⟨_, s.buildRequest_of_oversize hcmd addr hlen, rfl, hq⟩
    · rw [buildBytes_of_fits hcmd addr hlen]
      exact ⟨_, State.buildRequest_of_fits hq hcmd addr hlen, rfl, rfl⟩

/-! ## What the operations of R64 leave to the encoder -/

/-- What the encoder holds, with the rest of the block at reset: two states with the same one stage and queue the
same. -/
def State.onlyEncoder (s : State) : State :=
  { State.reset with txCmd := s.txCmd, txAddr := s.txAddr, txCnt := s.txCnt, txBuf := s.txBuf, txQ := s.txQ }

/-- What an instruction stages, if it is one that does (R61, R62). -/
def State.stage (s : State) : Instr → State
  | .txNew cmd addr => s.stageNew cmd addr
  | .txPush b => s.stagePush b
  | _ => s

theorem State.stagePush_onlyEncoder (s : State) (b : Byte) :
    (s.stagePush b).onlyEncoder = s.onlyEncoder.stagePush b := by
  rcases s.stagePush_cases b with ⟨hlt, ht⟩ | ⟨heq, ht⟩ | ⟨hgt, ht⟩ <;> rw [ht]
  · simp [State.stagePush, State.onlyEncoder, Config.maxPayload, hlt]
  · simp [State.stagePush, State.onlyEncoder, Config.maxPayload, heq]
  · simp [State.stagePush, State.onlyEncoder, Config.maxPayload, hgt.not_gt, hgt.ne']

theorem State.stagePushes_txQ (s : State) (bytes : List Byte) : (bytes.foldl State.stagePush s).txQ = s.txQ := by
  induction bytes generalizing s with
  | nil => rfl
  | cons b bs ih => rw [List.foldl_cons, ih, State.stagePush_txQ]

theorem exec_onlyEncoder_of_interleaves {i : Instr} {s t : State} (hi : i.interleaves = true)
    (h : exec i s = .next t) : t.onlyEncoder = s.onlyEncoder := by
  cases i
  case crcInit | crcByte | rxClr | errClr => cases h; rfl
  case rxPush b => cases h; simp [State.onlyEncoder]
  case rxParse =>
    obtain ⟨r, rfl⟩ := State.parseReceived_judges h
    rw [s.judge_frame]
    rfl
  case rxPayload => rw [State.interpretFrame_frame h]; rfl
  case rd reg => cases h; rw [s.readRegister_frame reg]; rfl
  case rdPl k => rw [State.readPayloadByte_frame h]; rfl
  all_goals cases hi

theorem State.stage_of_not_stages (s : State) {i : Instr} (hi : i.stages = false) : s.stage i = s := by
  cases i
  case txNew | txPush => cases hi
  all_goals rfl

/-- The encoder's state after an operation of R64 other than `TX.BUILD` is what the operation stages. -/
theorem exec_onlyEncoder {i : Instr} {s t : State} (hi : i.stages = true ∨ i.interleaves = true) (hb : i ≠ .txBuild)
    (h : exec i s = .next t) : t.onlyEncoder = s.onlyEncoder.stage i := by
  cases hstages : i.stages with
  | false =>
    rw [State.stage_of_not_stages _ hstages]
    exact exec_onlyEncoder_of_interleaves (hi.resolve_left (by simp [hstages])) h
  | true =>
    cases i
    case txNew cmd addr => cases h; rfl
    case txPush b => cases h; exact s.stagePush_onlyEncoder b
    case txBuild => exact absurd rfl hb
    all_goals cases hstages

/-- Only the operations that stage count for the staging of a program. -/
theorem foldl_stage_filter (prog : List Instr) (s : State) :
    (prog.filter Instr.stages).foldl State.stage s = prog.foldl State.stage s := by
  rw [List.foldl_filter]
  congr 1
  funext u i
  cases hi : i.stages with
  | false => simp [State.stage_of_not_stages u hi]
  | true => rfl

/-- No instruction reads or writes what is issued next. -/
theorem exec_port {i : Instr} {s t : State} (h : exec i s = .next t) : t.port = s.port := by
  cases i using Instr.rowCases with
  | crcInit => cases h; rfl
  | crcByte b => cases h; rfl
  | txNew cmd addr => cases h; rfl
  | txPush b => cases h; exact s.stagePush_port b
  | txBuild => rw [State.buildFrame_frame h]
  | lineTake => cases h; rw [s.takeByte_frame]
  | rxClr => cases h; rfl
  | rxPush b => cases h; exact s.receive_port b
  | rxParse =>
    obtain ⟨r, rfl⟩ := State.parseReceived_judges h
    rw [s.judge_frame]
  | rxPayload => rw [State.interpretFrame_frame h]
  | rd reg => cases h; rw [s.readRegister_frame reg]
  | rdPl k => rw [State.readPayloadByte_frame h]
  | errClr => cases h; rfl
  | request i addr payload hrow =>
    obtain ⟨cmd, hrow⟩ := hrow
    rw [State.buildRequest_frame ((exec_requestRow hrow s).symm.trans h)]
  | response i addr payload ack crc hrow =>
    obtain ⟨cmd, hrow⟩ := hrow
    obtain ⟨cnt, buf, r, -, -, hj⟩ := s.parseSequence_judges (responseFrame cmd addr payload ack crc)
    rw [← Host.Outcome.next.inj (hj.symm.trans ((exec_responseRow hrow s).symm.trans h)), State.judge_frame]

/-! ## The queue of a state that holds a built frame (R66) -/

theorem State.buildFrame_txQ {s t : State} (hq : s.txQ ≠ []) (h : s.buildFrame = .next t) : t.txQ = s.txQ := by
  rcases s.buildFrame_next t h with ⟨-, rfl⟩ | ⟨-, -, rfl⟩ | ⟨-, -, -, rfl⟩ | ⟨-, -, hnil, -⟩
  · simp
  · simp
  · rfl
  · exact absurd hnil hq

theorem State.parseSequence_txQ {s t : State} {bytes : List Byte} (h : s.parseSequence bytes = .next t) :
    t.txQ = s.txQ := by
  obtain ⟨cnt, buf, r, -, -, hj⟩ := s.parseSequence_judges bytes
  rw [← Host.Outcome.next.inj (hj.symm.trans h), State.judge_frame]

theorem exec_txQ_of_interleaves {i : Instr} {s t : State} (hi : i.interleaves = true) (h : exec i s = .next t) :
    t.txQ = s.txQ :=
  congrArg (fun u => u.txQ) (exec_onlyEncoder_of_interleaves hi h)

theorem exec_txQ_of_ne_lineTake {i : Instr} {s t : State} (hq : s.txQ ≠ []) (hi : i ≠ .lineTake)
    (h : exec i s = .next t) : t.txQ = s.txQ := by
  cases i using Instr.rowCases with
  | txNew cmd addr => cases h; rfl
  | txPush b => cases h; exact s.stagePush_txQ b
  | txBuild => exact State.buildFrame_txQ hq h
  | lineTake => exact absurd rfl hi
  | request i addr payload hrow =>
    obtain ⟨cmd, hrow⟩ := hrow
    obtain ⟨cnt, buf, -, -, hb⟩ := s.buildRequest_stages cmd addr payload
    exact State.buildFrame_txQ (s := { s with txCmd := cmd, txAddr := addr, txCnt := cnt, txBuf := buf }) hq
      (hb.symm.trans ((exec_requestRow hrow s).symm.trans h))
  | response i addr payload ack crc hrow =>
    obtain ⟨cmd, hrow⟩ := hrow
    exact State.parseSequence_txQ ((exec_responseRow hrow s).symm.trans h)
  | _ => exact exec_txQ_of_interleaves rfl h

/-! ## Runs of the encoder's operations (R64, R65) -/

/-- The operations of R64 are operation words, which the encoding always spells. -/
theorem wf_of_stages_or_interleaves {i : Instr} (hi : i.stages = true ∨ i.interleaves = true) : i.wf = true := by
  cases i
  case crcInit | crcByte | txNew | txPush | txBuild | lineTake | rxClr | rxPush | rxParse | rxPayload | rd | rdPl
      | errClr => rfl
  all_goals exact hi.elim nofun nofun

/-- A program of the operations of R64 without a `TX.BUILD` runs whole and leaves the encoder what it stages. -/
theorem run_interleaved_staging {s : State} {prog : List Instr} {rest : List Issue} (hs : s.Inv)
    (hkinds : ∀ i ∈ prog, i.stages = true ∨ i.interleaves = true) (hbuild : .txBuild ∉ prog)
    (hp : s.port = issues prog ++ rest) :
    ∃ t, Sys2Proof.core.run prog.length s = .next t ∧ t.Inv ∧ t.port = rest ∧
      t.onlyEncoder = prog.foldl State.stage s.onlyEncoder := by
  induction prog generalizing s with
  | nil => exact ⟨s, run_zero s, hs, hp, rfl⟩
  | cons i prog ih =>
    have hi := hkinds i List.mem_cons_self
    obtain ⟨hne, hbuild'⟩ := not_or.1 (List.mem_cons.not.1 hbuild)
    have hs' : State.Inv { s with port := issues prog ++ rest } := hs.withPort _
    obtain ⟨u, hu⟩ := exec_completes i hs'
    have hstep : step s = .next u := (step_of_issue hp (wf_of_stages_or_interleaves hi)).trans hu
    have henc : u.onlyEncoder = s.onlyEncoder.stage i :=
      exec_onlyEncoder (s := { s with port := issues prog ++ rest }) hi (Ne.symm hne) hu
    obtain ⟨t, hrun, ht, hport, hview⟩ := ih (exec_keeps_inv hs' hu)
      (fun j hj => hkinds j (List.mem_cons_of_mem _ hj)) hbuild' (exec_port hu)
    exact ⟨t, (run_succ hstep _).trans hrun, ht, hport, by rw [hview, henc, List.foldl_cons]⟩

/-- A `LINE.TAKE` issued while the queue is empty (R65). -/
theorem step_lineTake_of_nil {s : State} {rest : List Issue} (hq : s.txQ = [])
    (hp : s.port = (encode .lineTake).issue :: rest) :
    step s = .next { s with result := .held .empty, port := rest } := by
  rw [step_of_issue hp rfl]
  exact congrArg _ (State.takeByte_of_nil (s := { s with port := rest }) hq)

/-- The `LINE.TAKE` after the last byte of the queue holds `Empty` (R65, R107). -/
theorem run_lineTakes_past_end {s : State} {n : Nat} {rest : List Issue} (hn : s.txQ.length = n)
    (hp : s.port = issues (List.replicate (n + 1) .lineTake) ++ rest) :
    Sys2Proof.core.run (n + 1) s = .next { s with txQ := [], result := .held .empty, port := rest } := by
  induction n generalizing s with
  | zero =>
    have hq : s.txQ = [] := List.eq_nil_of_length_eq_zero hn
    rw [run_succ (step_lineTake_of_nil hq hp), run_zero, hq]
    rfl
  | succ n ih =>
    cases hq : s.txQ with
    | nil => simp [hq] at hn
    | cons b q =>
      rw [hq, List.length_cons] at hn
      rw [run_succ (step_lineTake hq hp), ih (Nat.succ.inj hn) rfl]

end Sys2Proof.Machine

namespace Sys2Proof.Proofs

open Sys2Proof.Machine Sys2Proof.Claims

/-! ## The statements -/

/-- Settles O11, by the three cases of `TX.PUSH`. -/
theorem txPushAppendsOrMarksOverflow : Obligations.TxPushAppendsOrMarksOverflow := by
  refine ⟨selects_txPush, fun b s => ?_⟩
  rw [exec_txPush]
  rcases s.stagePush_cases b with ⟨hlt, ht⟩ | ⟨heq, ht⟩ | ⟨hgt, ht⟩ <;> rw [ht]
  · exact ⟨fun _ => ⟨_, rfl, rfl, Memory.read_write_same .., fun i hi => Memory.read_write_ne _ _ _ _ hi⟩,
      fun h => absurd h (by omega), fun h => absurd h (by omega)⟩
  · exact ⟨fun h => absurd h (by omega), fun _ => rfl, fun h => absurd h (by omega)⟩
  · exact ⟨fun h => absurd h (by omega), fun h => absurd h (by omega), fun _ => rfl⟩

/-- Settles O12: each clause is one case of `TX.BUILD`. -/
theorem txBuildFollowsItsRule : Obligations.TxBuildFollowsItsRule := by
  intro s
  refine ⟨State.buildFrame_of_unknown, fun hcmd hcnt => ?oversize, State.buildFrame_of_busy,
    fun payload hcmd hcnt hq hlen hread => ?builds⟩
  case oversize => exact State.buildFrame_of_oversize hcmd (by rw [hcnt]; decide)
  case builds =>
    have hstaged : s.txBuf.readFrom 0 s.txCnt.toNat = some payload :=
      (Memory.readFrom_eq_some_iff _ _ _ _).2 ⟨hlen, fun k hk => by rw [Nat.zero_add, hread k (hlen ▸ hk)]⟩
    rw [← requestFrame_eq_closed]
    exact State.buildFrame_of_staged hcmd hcnt hq hstaged

/-- Settles O13: each case of `TX.BUILD` over an empty queue is chosen and filled by the staged operands. -/
theorem builtFrameDependsOnlyOnStaging : Obligations.BuiltFrameDependsOnlyOnStaging :=
  fun _ _ _ => State.buildFrame_of_sameStaging

/-- Settles O15: a take within the queue, or the one after its last byte. -/
theorem lineTakesReturnTheFrameInOrder : Obligations.LineTakesReturnTheFrameInOrder := by
  intro s n rest hn hp
  rcases hn.lt_or_eq with hlt | rfl
  · have hb : s.txQ[n]? = some s.txQ[n] := List.getElem?_eq_getElem hlt
    exact ⟨_, run_lineTakes hb hp, rfl, rfl, by rw [hb]⟩
  · exact ⟨_, run_lineTakes_past_end rfl hp, by simp, rfl, by simp⟩

/-- Settles O16: the interleaved run leaves the encoder staged as the pseudo-instruction `build` stages it, and
`TX.BUILD` reads nothing else. -/
theorem interleavedBuildAgreesWithBuildBytes : Obligations.InterleavedBuildAgreesWithBuildBytes := by
  intro s prog cmd addr payload rest hs hq hkinds hfilter hp
  have hbuild : .txBuild ∉ prog := fun hmem => by
    have : .txBuild ∈ prog.filter Instr.stages := List.mem_filter.2 ⟨hmem, rfl⟩
    simp [hfilter] at this
  rw [issues_append, List.append_assoc] at hp
  obtain ⟨u, hrun, -, hport, henc⟩ := run_interleaved_staging hs hkinds hbuild hp
  have hstaged : u.onlyEncoder = payload.foldl State.stagePush (s.onlyEncoder.stageNew cmd addr) := by
    rw [henc, ← foldl_stage_filter, hfilter, List.foldl_cons, List.foldl_map]
    rfl
  have huq : u.onlyEncoder.txQ = [] := by rw [hstaged, State.stagePushes_txQ]; exact hq
  obtain ⟨v, hrequest, hagrees⟩ := State.buildRequest_agrees (s := s.onlyEncoder) hq cmd addr payload
  have hv : u.onlyEncoder.buildFrame = .next v := hstaged ▸ hrequest
  obtain ⟨t, ht, htq, hresult⟩ := State.buildFrame_of_sameStaging (s₂ := { u with port := rest }) huq huq rfl rfl rfl
    (fun _ _ => rfl) hv
  have hstep : step u = .next t := (step_of_issue (i := .txBuild) hport rfl).trans ht
  refine ⟨t, (run_add hrun 1).trans (run_succ hstep 0), ?_⟩
  cases hb : buildBytes cmd addr payload with
  | ok frame =>
    rw [hb] at hagrees
    obtain ⟨hok, hframe⟩ := hagrees
    exact ⟨hresult.trans hok, htq.trans hframe⟩
  | error c =>
    rw [hb] at hagrees
    obtain ⟨hraised, hempty⟩ := hagrees
    exact ⟨hresult.trans hraised, htq.trans hempty, (ErrRecorded.buildFrame ht).encoding c (hresult.trans hraised)⟩

/-- Settles O46: only `LINE.TAKE` and `TX.BUILD` write the queue, and `TX.BUILD` writes none that holds bytes. -/
theorem queuedFrameIsOnlyTakenInOrder : Obligations.QueuedFrameIsOnlyTakenInOrder := by
  intro i s t h hq
  by_cases hi : i = .lineTake
  · subst hi
    obtain ⟨b, q, hcons⟩ := List.exists_cons_of_ne_nil hq
    obtain rfl : s.takeByte = t := Host.Outcome.next.inj h
    rw [State.takeByte_of_cons hcons]
    exact .inl ⟨rfl, b, hcons, rfl⟩
  · exact .inr ⟨hi, exec_txQ_of_ne_lineTake hq hi h⟩

/-- Settles O9, by the cases of `build_bytes`. -/
theorem buildBytesMakesTheRequestFrame : Obligations.BuildBytesMakesTheRequestFrame := by
  intro cmd addr payload
  rw [← requestFrame_eq_closed]
  split_ifs with hcmd hlen
  · exact buildBytes_of_unknown hcmd addr payload
  · exact buildBytes_of_oversize (by simpa using hcmd) addr hlen
  · exact buildBytes_of_fits (by simpa using hcmd) addr (Nat.not_lt.1 hlen)

/-- Settles O10: an emptied store reads as holding nothing. -/
theorem txNewStagesAnEmptyPayload : Obligations.TxNewStagesAnEmptyPayload :=
  ⟨selects_txNew, fun _ _ _ => ⟨_, rfl, rfl, fun _ => rfl⟩⟩

/-- Settles O14, by the two cases of `LINE.TAKE`. -/
theorem lineTakeRemovesTheHead : Obligations.LineTakeRemovesTheHead :=
  fun _ => ⟨fun hq => congrArg _ (State.takeByte_of_nil hq), fun _ _ hq => congrArg _ (State.takeByte_of_cons hq)⟩

end Sys2Proof.Proofs

/-! PROOFS of the family 42_decoder.md. First the rules the proofs cite: what each verdict of `parse_bytes` says of the
bytes, the response layout byte by byte, why one changed bit shows in the residue, and what the decoder's operations do;
then the statements. -/

namespace Sys2Proof.Machine

open Sys2Proof.Claims

/-! ## The verdict of `parse_bytes` in terms of the tests (R70, R105) -/

/-- What a verdict says of the bytes it is on: a cause, that its own test fails and every earlier one passes; a frame,
that all pass and its fields stand where the layout puts them (R70). -/
def Judged (r : List Byte) : Except DecodingCause ParsedFrame → Prop
  | .error .empty => r.length = 0
  | .error .length => r.length ≠ 0 ∧ (r.length < 5 ∨ r.length ≠ 8 + (byteAt r 4).toNat)
  | .error .opcode => 5 ≤ r.length ∧ r.length = 8 + (byteAt r 4).toNat ∧ inCmdSet (byteAt r 1) = false
  | .error .ack => 5 ≤ r.length ∧ r.length = 8 + (byteAt r 4).toNat ∧ inCmdSet (byteAt r 1) = true ∧
      inAckSet (byteAt r (5 + (byteAt r 4).toNat)) = false
  | .error .marker => 5 ≤ r.length ∧ r.length = 8 + (byteAt r 4).toNat ∧ inCmdSet (byteAt r 1) = true ∧
      inAckSet (byteAt r (5 + (byteAt r 4).toNat)) = true ∧ byteAt r 0 ≠ 0x2E#8
  | .error .crc => 5 ≤ r.length ∧ r.length = 8 + (byteAt r 4).toNat ∧ inCmdSet (byteAt r 1) = true ∧
      inAckSet (byteAt r (5 + (byteAt r 4).toNat)) = true ∧ byteAt r 0 = 0x2E#8 ∧
      crc16 (r.take (r.length - 2)) ≠ be16 (byteAt r (r.length - 2)) (byteAt r (r.length - 1))
  | .error .payload => False
  | .ok p => 5 ≤ r.length ∧ r.length = 8 + (byteAt r 4).toNat ∧ inCmdSet (byteAt r 1) = true ∧
      inAckSet (byteAt r (5 + (byteAt r 4).toNat)) = true ∧ byteAt r 0 = 0x2E#8 ∧
      crc16 (r.take (r.length - 2)) = be16 (byteAt r (r.length - 2)) (byteAt r (r.length - 1)) ∧
      p.cmd = byteAt r 1 ∧ p.addr = be16 (byteAt r 2) (byteAt r 3) ∧
      p.payload.length = (byteAt r 4).toNat ∧ (∀ i, i < (byteAt r 4).toNat → p.payload[i]? = r[5 + i]?) ∧
      p.ack = byteAt r (5 + (byteAt r 4).toNat) ∧ p.crc = crc16 (r.take (r.length - 2))

/-- A stretch of a sequence is known by its length and its bytes. -/
theorem eq_take_drop_iff {r bytes : List Byte} {k n : Nat} (h : k + n ≤ r.length) :
    bytes = (r.drop k).take n ↔ bytes.length = n ∧ ∀ i, i < n → bytes[i]? = r[k + i]? := by
  constructor
  · rintro rfl
    refine ⟨by rw [List.length_take, List.length_drop]; omega, fun i hi => ?_⟩
    rw [List.getElem?_take_of_lt hi, List.getElem?_drop]
  · rintro ⟨hlen, hbytes⟩
    refine List.ext_getElem? fun i => ?_
    by_cases hi : i < n
    · rw [hbytes i hi, List.getElem?_take_of_lt hi, List.getElem?_drop]
    · rw [List.getElem?_eq_none (by omega), List.getElem?_eq_none (by rw [List.length_take]; omega)]

/-- The verdict is what its tests say. -/
theorem parseBytes_judged (r : List Byte) : Judged r (parseBytes r) := by
  unfold parseBytes
  dsimp only
  split_ifs with hempty hshort hcount hcmd hack hstart hcrc
  · exact hempty
  · exact ⟨hempty, .inl hshort⟩
  · exact ⟨hempty, .inr hcount⟩
  all_goals
    have hlen : r.length = 8 + (byteAt r 4).toNat := not_not.1 hcount
    have hfive : 5 ≤ r.length := Nat.not_lt.1 hshort
  · exact ⟨hfive, hlen, by simpa using hcmd⟩
  · exact ⟨hfive, hlen, by simpa using hcmd, by simpa using hack⟩
  · exact ⟨hfive, hlen, by simpa using hcmd, by simpa using hack, hstart⟩
  · exact ⟨hfive, hlen, by simpa using hcmd, by simpa using hack, not_not.1 hstart, hcrc⟩
  · obtain ⟨hpl, hbytes⟩ := (eq_take_drop_iff (by omega)).1 (rfl : (r.drop 5).take (byteAt r 4).toNat = _)
    exact ⟨hfive, hlen, by simpa using hcmd, by simpa using hack, not_not.1 hstart, not_not.1 hcrc, rfl, rfl,
      hpl, hbytes, rfl, rfl⟩

/-- The four tests that remain once the count is right; it is then above 4 (R70). -/
theorem parseBytes_of_length {r : List Byte} (hlen : r.length = 8 + (byteAt r 4).toNat) :
    parseBytes r =
      if !inCmdSet (byteAt r 1) then .error .opcode
      else if !inAckSet (byteAt r (5 + (byteAt r 4).toNat)) then .error .ack
      else if byteAt r 0 ≠ 0x2E#8 then .error .marker
      else if crc16 (r.take (r.length - 2)) ≠ be16 (byteAt r (r.length - 2)) (byteAt r (r.length - 1)) then .error .crc
      else .ok ⟨byteAt r 1, be16 (byteAt r 2) (byteAt r 3), (r.drop 5).take (byteAt r 4).toNat,
        byteAt r (5 + (byteAt r 4).toNat), crc16 (r.take (r.length - 2))⟩ := by
  have hempty : ¬ r.length = 0 := by omega
  have hshort : ¬ r.length < 5 := by omega
  unfold parseBytes
  dsimp only
  rw [if_neg hempty, if_neg hshort, if_neg (not_not.2 hlen)]
  rfl

/-- The tests of a verdict decide it: no bytes meet those of two. -/
theorem parseBytes_of_judged {r : List Byte} {v : Except DecodingCause ParsedFrame} (h : Judged r v) :
    parseBytes r = v := by
  match v, h with
  | .error .empty, hempty => simp [parseBytes, List.eq_nil_of_length_eq_zero hempty]
  | .error .length, ⟨hne, hbad⟩ =>
    have hnil : r ≠ [] := List.length_eq_zero_iff.not.1 hne
    rcases hbad with hshort | hcount
    · simp [parseBytes, hnil, hshort]
    · simp [parseBytes, hnil, hcount]
  | .error .opcode, ⟨_, hlen, hcmd⟩ => simp [parseBytes_of_length hlen, hcmd]
  | .error .ack, ⟨_, hlen, hcmd, hack⟩ => simp [parseBytes_of_length hlen, hcmd, hack]
  | .error .marker, ⟨_, hlen, hcmd, hack, hstart⟩ => simp [parseBytes_of_length hlen, hcmd, hack, hstart]
  | .error .crc, ⟨_, hlen, hcmd, hack, hstart, hcrc⟩ => simp [parseBytes_of_length hlen, hcmd, hack, hstart, hcrc]
  | .ok ⟨cmd, addr, payload, ack, crc⟩, ⟨_, hlen, hcmd, hack, hstart, hcrc, hpc, hpa, hpl, hbytes, hpk, hpr⟩ =>
    obtain rfl : payload = (r.drop 5).take (byteAt r 4).toNat := (eq_take_drop_iff (by omega)).2 ⟨hpl, hbytes⟩
    dsimp only at hpc hpa hpk hpr
    simp [parseBytes_of_length hlen, hcmd, hack, hstart, hcrc, hpc, hpa, hpk, hpr]

theorem parseBytes_eq_iff (r : List Byte) (v : Except DecodingCause ParsedFrame) :
    parseBytes r = v ↔ Judged r v :=
  ⟨fun h => h ▸ parseBytes_judged r, parseBytes_of_judged⟩

/-! ## The response layout, byte by byte (R37) -/

theorem closed_length (body : List Byte) (c : Half) : (closed body c).length = body.length + 2 := by
  simp [closed]

theorem take_closed (body : List Byte) (c : Half) : (closed body c).take ((closed body c).length - 2) = body := by
  rw [closed_length]
  exact List.take_left

/-- The last two bytes of a closed sequence are the field it was closed with. -/
theorem crcField_closed (body : List Byte) (c : Half) :
    be16 (byteAt (closed body c) ((closed body c).length - 2)) (byteAt (closed body c) ((closed body c).length - 1)) =
      c := by
  have hhi : byteAt (closed body c) ((closed body c).length - 2) = hi8 c := by simp [byteAt, closed, hi8]
  have hlo : byteAt (closed body c) ((closed body c).length - 1) = lo8 c := by simp [byteAt, closed, lo8]
  rw [hhi, hlo, be16_hi8_lo8]

theorem closed_be16 (body : List Byte) (hi lo : Byte) : closed body (be16 hi lo) = body ++ [hi, lo] := by
  change body ++ [hi8 (be16 hi lo), lo8 (be16 hi lo)] = _
  rw [hi8_be16, lo8_be16]

/-- Every sequence of two bytes or more is what stands before its last two, closed with these. -/
theorem eq_closed {r : List Byte} (h : 2 ≤ r.length) :
    r = closed (r.take (r.length - 2)) (be16 (byteAt r (r.length - 2)) (byteAt r (r.length - 1))) := by
  obtain ⟨hi, lo, hlast⟩ : ∃ hi lo, r.drop (r.length - 2) = [hi, lo] :=
    List.length_eq_two.1 (by rw [List.length_drop]; omega)
  obtain ⟨body, rfl⟩ : ∃ body, r = body ++ [hi, lo] := ⟨_, hlast ▸ (List.take_append_drop _ r).symm⟩
  simp [byteAt, closed_be16]

section ResponseLayout

variable (cmd : Byte) (addr : Half) (payload : List Byte) (ack : Byte) (crc : Half)

theorem responseBytes_length : (responseBytes cmd addr payload ack).length = 6 + payload.length := by
  simp only [responseBytes, List.length_append, List.length_cons, List.length_nil]
  omega

theorem response_length : (closed (responseBytes cmd addr payload ack) crc).length = 8 + payload.length := by
  rw [closed_length, responseBytes_length]
  omega

theorem byteAt_response_start : byteAt (closed (responseBytes cmd addr payload ack) crc) 0 = 0x2E#8 := rfl

theorem byteAt_response_cmd : byteAt (closed (responseBytes cmd addr payload ack) crc) 1 = cmd := rfl

theorem response_addr :
    be16 (byteAt (closed (responseBytes cmd addr payload ack) crc) 2)
      (byteAt (closed (responseBytes cmd addr payload ack) crc) 3) = addr :=
  be16_hi8_lo8 addr

theorem byteAt_response_len {payload : List Byte} (h : payload.length ≤ 255) :
    (byteAt (closed (responseBytes cmd addr payload ack) crc) 4).toNat = payload.length :=
  countByte_toNat _ h

theorem byteAt_response_ack :
    byteAt (closed (responseBytes cmd addr payload ack) crc) (5 + payload.length) = ack := by
  simp [byteAt, closed, responseBytes, Nat.add_comm 5]

theorem response_payload :
    ((closed (responseBytes cmd addr payload ack) crc).drop 5).take payload.length = payload := by
  simp [closed, responseBytes]

end ResponseLayout

/-- A sequence that begins with the start marker of a response and has 8 bytes more than its length byte says is in the
response layout. -/
theorem exists_response {r : List Byte} (hstart : byteAt r 0 = 0x2E#8) (hlen : r.length = 8 + (byteAt r 4).toNat) :
    ∃ cmd addr payload ack crc, payload.length ≤ 255 ∧ r = closed (responseBytes cmd addr payload ack) crc := by
  match r, hlen with
  | start :: cmd :: ah :: al :: len :: rest, hlen =>
    have hrest : rest.length = 3 + len.toNat := by
      have hcount : rest.length + 5 = 8 + len.toNat := hlen
      omega
    obtain ⟨ack, ch, cl, hdrop⟩ : ∃ ack ch cl, rest.drop len.toNat = [ack, ch, cl] :=
      List.length_eq_three.1 (by rw [List.length_drop]; omega)
    have hsplit : splitResponse (start :: cmd :: ah :: al :: len :: rest) =
        some (cmd, be16 ah al, rest.take len.toNat, ack, be16 ch cl) := by
      have hstart' : start = Config.startRsp := hstart
      simp [splitResponse, hstart', hdrop]
    exact ⟨_, _, _, _, _, by rw [List.length_take]; omega, (responseFrame_of_splitResponse hsplit).symm⟩

/-- The verdict on a sequence in the response layout (R37, R70). -/
theorem parseBytes_response (cmd : Byte) (addr : Half) {payload : List Byte} (ack : Byte) (crc : Half)
    (h : payload.length ≤ 255) :
    parseBytes (closed (responseBytes cmd addr payload ack) crc) =
      if !inCmdSet cmd then .error .opcode
      else if !inAckSet ack then .error .ack
      else if crc16 (responseBytes cmd addr payload ack) ≠ crc then .error .crc
      else .ok ⟨cmd, addr, payload, ack, crc16 (responseBytes cmd addr payload ack)⟩ := by
  have hlen := byteAt_response_len cmd addr ack crc h
  rw [parseBytes_of_length (by rw [response_length, hlen]), hlen, byteAt_response_cmd, byteAt_response_ack,
    byteAt_response_start, take_closed, crcField_closed, response_addr, response_payload]
  rfl

/-! ## A built request frame (R36, R60) -/

/-- `build_bytes` makes the request frame of a known command within its length byte, and nothing else (R60). -/
theorem buildBytes_ok {cmd : Byte} {addr : Half} {payload f : List Byte} (h : buildBytes cmd addr payload = .ok f) :
    payload.length ≤ 255 ∧ f = requestFrame cmd addr payload := by
  unfold buildBytes at h
  split_ifs at h with hcmd hlen
  exact ⟨hlen, (Except.ok.inj h).symm⟩

theorem byteAt_request_len (cmd : Byte) (addr : Half) {payload : List Byte} (h : payload.length ≤ 255) :
    (byteAt (requestFrame cmd addr payload) 4).toNat = payload.length :=
  countByte_toNat _ h

theorem crc16_requestFrame (cmd : Byte) (addr : Half) (payload : List Byte) :
    crc16 (requestFrame cmd addr payload) = 0x0000#16 :=
  crc16_closed (requestBytes cmd addr payload)

/-- A request frame has one byte less than a response of its length byte (R36, R37). -/
theorem parseBytes_requestFrame (cmd : Byte) (addr : Half) {payload : List Byte} (h : payload.length ≤ 255) :
    parseBytes (requestFrame cmd addr payload) = .error .length := by
  have hlen := requestFrame_length cmd addr payload
  have hcount := byteAt_request_len cmd addr h
  exact (parseBytes_eq_iff _ (.error .length)).2 ⟨by omega, .inr (by omega)⟩

/-! ## One changed bit (R78) -/

theorem byteAt_set_self {r : List Byte} {j : Nat} (h : j < r.length) (b : Byte) : byteAt (r.set j b) j = b := by
  simp [byteAt, h]

theorem byteAt_set_ne (r : List Byte) {i j : Nat} (h : j ≠ i) (b : Byte) : byteAt (r.set j b) i = byteAt r i := by
  simp [byteAt, h]

/-- The change that is bit `k` of byte `j` of a sequence of `n` bytes, and no other. -/
def bitChange (n j k : Nat) : List Byte :=
  (List.replicate n 0x00#8).set j (1#8 <<< k)

theorem bitChange_length (n j k : Nat) : (bitChange n j k).length = n := by
  simp [bitChange]

theorem byteAt_bitChange {n j : Nat} (hj : j < n) (k i : Nat) :
    byteAt (bitChange n j k) i = if i = j then 1#8 <<< k else 0x00#8 := by
  split_ifs with h
  · subst h
    exact byteAt_set_self (by simpa using hj) _
  · rw [bitChange, byteAt_set_ne _ (Ne.symm h)]
    rw [byteAt, List.getD_eq_getElem?_getD, List.getElem?_getD_replicate_default_eq]

/-- Changing one bit is adding the change of that bit. -/
theorem set_flip_eq_corrupt {r : List Byte} {j : Nat} (hj : j < r.length) (k : Nat) :
    r.set j (byteAt r j ^^^ 1#8 <<< k) = corrupt r (bitChange r.length j k) := by
  refine List.ext_getElem (by simp [corrupt, bitChange]) fun i hi hi' => ?_
  by_cases h : j = i
  · subst h
    simp [corrupt, bitChange, byteAt, hj]
  · simp [corrupt, bitChange, h]

/-- One set bit is a burst of its own. -/
theorem crc16_bitChange_ne_zero {n j k : Nat} (hj : j < n) (hk : k < 8) : crc16 (bitChange n j k) ≠ 0#16 := by
  have hbit : ∀ i, wireBit (bitChange n j k) i = true ↔ i = 8 * j + (7 - k) := fun i => by
    unfold wireBit
    rw [byteAt_bitChange hj]
    split_ifs with h
    · rw [BitVec.getLsbD_shiftLeft, BitVec.getLsbD_one]
      simp
      omega
    · simp
      omega
  exact crc16_ne_zero_of_burst (k := 8 * j + (7 - k)) ((hbit _).2 rfl) fun i hi => by have := (hbit i).1 hi; omega

theorem crc16_flip_ne_zero {r : List Byte} (hr : crc16 r = 0#16) {j k : Nat} (hj : j < r.length) (hk : k < 8) :
    crc16 (r.set j (byteAt r j ^^^ 1#8 <<< k)) ≠ 0#16 := by
  rw [set_flip_eq_corrupt hj, crc16_corrupt (bitChange_length ..).symm, hr, BitVec.zero_xor]
  exact crc16_bitChange_ne_zero hj hk

theorem flip_ne (b : Byte) {k : Nat} (hk : k < 8) : b ^^^ 1#8 <<< k ≠ b := by
  intro h
  have hbit := congrArg (fun x => x.getLsbD k) h
  simp [hk] at hbit

/-- The CRC test fails on a sequence with a residue (R57). -/
theorem crcField_ne_of_residue {r : List Byte} (h : 2 ≤ r.length) (hres : crc16 r ≠ 0#16) :
    crc16 (r.take (r.length - 2)) ≠ be16 (byteAt r (r.length - 2)) (byteAt r (r.length - 1)) := by
  intro heq
  have hclosed := eq_closed h
  rw [← heq] at hclosed
  exact hres (hclosed ▸ crc16_closed _)

/-- A sequence of the right count that has a residue is refused, at the latest by the CRC test. -/
theorem parseBytes_of_residue {r : List Byte} {n : Nat} (hlen : r.length = 8 + n) (hn : (byteAt r 4).toNat = n)
    (hres : crc16 r ≠ 0#16) :
    parseBytes r = .error (
      if !inCmdSet (byteAt r 1) then .opcode
      else if !inAckSet (byteAt r (5 + n)) then .ack
      else if byteAt r 0 ≠ 0x2E#8 then .marker
      else .crc) := by
  rw [parseBytes_of_length (by rw [hlen, hn]), hn, if_pos (crcField_ne_of_residue (by omega) hres)]
  split_ifs <;> rfl

/-- The start marker is tested after the bytes that a wrong one leaves alone, and before the CRC (R70, R78). -/
theorem parseBytes_wrong_start {cmd : Byte} (addr : Half) {payload : List Byte} {ack : Byte}
    (hcmd : inCmdSet cmd = true) (hack : inAckSet ack = true) (hpl : payload.length ≤ 255) (crc : Half) {b : Byte}
    (hb : b ≠ 0x2E#8) :
    parseBytes ((closed (responseBytes cmd addr payload ack) crc).set 0 b) = .error .marker := by
  have hlen := response_length cmd addr payload ack crc
  have hl := byteAt_response_len cmd addr ack crc hpl
  have hcmd' : inCmdSet (byteAt (closed (responseBytes cmd addr payload ack) crc) 1) = true := hcmd
  have hack' := byteAt_response_ack cmd addr payload ack crc
  generalize closed (responseBytes cmd addr payload ack) crc = f at *
  have hother : ∀ i, 0 ≠ i → byteAt (f.set 0 b) i = byteAt f i := fun i h => byteAt_set_ne f h b
  have hl' : (byteAt (f.set 0 b) 4).toNat = payload.length := by rw [hother 4 (by decide), hl]
  have hlen' : (f.set 0 b).length = 8 + payload.length := by rw [List.length_set, hlen]
  refine (parseBytes_eq_iff _ (.error .marker)).2 ⟨by omega, by rw [hlen', hl'], ?_, ?_, ?_⟩
  · rw [hother 1 (by decide), hcmd']
  · rw [hl', hother _ (by omega), hack', hack]
  · rwa [byteAt_set_self (by omega)]

/-- One changed bit leaves a residue wherever it is, and the test of the byte it is in comes first (R78). -/
theorem parseBytes_flip {cmd : Byte} {addr : Half} {payload : List Byte} {ack : Byte} (hcmd : inCmdSet cmd = true)
    (hack : inAckSet ack = true) (hpl : payload.length ≤ 255) {f : List Byte}
    (hf : f = closed (responseBytes cmd addr payload ack) (crc16 (responseBytes cmd addr payload ack)))
    {j k : Nat} (hj : j < f.length) (hk : k < 8) :
    parseBytes (f.set j (byteAt f j ^^^ 1#8 <<< k)) = .error (
      if j = 0 then .marker
      else if j = 1 then (if inCmdSet (byteAt f j ^^^ 1#8 <<< k) then .crc else .opcode)
      else if j = 4 then .length
      else if j = 5 + payload.length then (if inAckSet (byteAt f j ^^^ 1#8 <<< k) then .crc else .ack)
      else .crc) := by
  have hlen : f.length = 8 + payload.length := hf ▸ response_length ..
  have hl : (byteAt f 4).toNat = payload.length := hf ▸ byteAt_response_len _ _ _ _ hpl
  have hstart : byteAt f 0 = 0x2E#8 := hf ▸ byteAt_response_start ..
  have hcmd' : inCmdSet (byteAt f 1) = true := hf ▸ hcmd
  have hack' : inAckSet (byteAt f (5 + payload.length)) = true := by rwa [hf, byteAt_response_ack]
  have hne := flip_ne (byteAt f j) hk
  have hres := crc16_flip_ne_zero (hf ▸ crc16_closed _) hj hk
  generalize byteAt f j ^^^ 1#8 <<< k = b at hne hres ⊢
  have hself : byteAt (f.set j b) j = b := byteAt_set_self hj b
  have hother : ∀ i, i ≠ j → byteAt (f.set j b) i = byteAt f i := fun i h => byteAt_set_ne f h.symm b
  have hlen' : (f.set j b).length = 8 + payload.length := by rw [List.length_set, hlen]
  have hverdict : j ≠ 4 → parseBytes (f.set j b) = _ := fun h4 =>
    parseBytes_of_residue hlen' (by rw [hother 4 h4.symm, hl]) hres
  split_ifs with h0 h1 hknown h4 h5 hknown
  · subst h0
    rw [hf]
    exact parseBytes_wrong_start addr hcmd hack hpl _ (hstart ▸ hne)
  · subst h1
    rw [hverdict (by decide), hself, hother (5 + payload.length) (by omega), hother 0 (by decide)]
    simp [hknown, hack', hstart]
  · subst h1
    rw [hverdict (by decide), hself]
    simp [hknown]
  · subst h4
    have hcount : (byteAt (f.set 4 b) 4).toNat ≠ payload.length := by
      rw [hself, ← hl]
      exact fun h => hne (BitVec.eq_of_toNat_eq h)
    exact (parseBytes_eq_iff _ (.error .length)).2 ⟨by omega, .inr (by omega)⟩
  · subst h5
    rw [hverdict h4, hself, hother 1 (by omega), hother 0 (by omega)]
    simp [hknown, hcmd', hstart]
  · subst h5
    rw [hverdict h4, hself, hother 1 (by omega)]
    simp [hknown, hcmd']
  · rw [hverdict h4, hother 1 (Ne.symm h1), hother (5 + payload.length) (Ne.symm h5), hother 0 (Ne.symm h0)]
    simp [hcmd', hack', hstart]

/-! ## The decoder's operations, case by case (R71 to R75) -/

theorem exec_rxPush (b : Byte) (s : State) : exec (.rxPush b) s = .next ((s.receive b).finish .ok) := rfl

theorem State.judge_error (s : State) {c : DecodingCause} (h : c ≠ .payload) :
    s.judge (.error c) = { s with
      frame := none, interp := .none, err := errOfDecoding c, result := .raised (.decoding c) } := by
  rw [State.judge, State.raise_decoding s c h, errAfter_decoding]

theorem State.judge_ok (s : State) (p : ParsedFrame) :
    s.judge (.ok p) = { s with frame := some (frameRegsOf p), interp := .none, result := .ok } := rfl

theorem ne_payload_of_parseBytes {r : List Byte} {c : DecodingCause} (h : parseBytes r = .error c) : c ≠ .payload :=
  fun hc => parseBytes_ne_payload r (hc ▸ h)

/-- A store that holds these bytes at the indices below their number reads as these. -/
theorem Memory.readFrom_of_holds {m : Memory} {n : Nat} {bytes : List Byte} (hlen : bytes.length = n)
    (hread : ∀ i, i < bytes.length → m.read i = bytes[i]?) : m.readFrom 0 n = some bytes :=
  (Memory.readFrom_eq_some_iff _ _ _ _).2 ⟨hlen, fun k hk => by rw [Nat.zero_add, hread k (hlen ▸ hk)]⟩

theorem State.parseReceived_of_overflow {s : State} (h : 263 < s.rxCnt.toNat) :
    s.parseReceived = .next (s.judge (.error .length)) := by
  simp [State.parseReceived, Config.rxDepth, h]

theorem State.parseReceived_of_held {s : State} {r : List Byte} (hcnt : s.rxCnt.toNat ≤ 263)
    (hread : s.rxBuf.readFrom 0 s.rxCnt.toNat = some r) : s.parseReceived = .next (s.judge (parseBytes r)) := by
  simp [State.parseReceived, Config.rxDepth, Nat.not_lt.2 hcnt, hread]

/-- `interpret_payload` of a command whose payload has no registered shape (R74, R83). -/
theorem interpretPayload_of_other {cmd : Byte} (h : cmd ≠ 0x37#8) (payload : List Byte) :
    interpretPayload cmd payload = .ok (.raw payload) := by
  simp [interpretPayload, identCmd, h]

theorem interpretPayload_of_known {m : Byte} (sig0 sig1 boot : Byte) (hm : m.toNat ≤ 3) :
    interpretPayload 0x37#8 [sig0, sig1, boot, m] =
      .ok (.ident ⟨sig0, sig1, boot, m.setWidth 2, familyOf m⟩) := by
  simp [interpretPayload, identCmd, knownMode, hm]

/-- An identification payload of another length, or with an unknown mode, is malformed (R74). -/
theorem interpretPayload_of_malformed {payload : List Byte}
    (h : payload.length ≠ 4 ∨ ∃ sig0 sig1 boot m : Byte, payload = [sig0, sig1, boot, m] ∧ 3 < m.toNat) :
    interpretPayload 0x37#8 payload = .error .payload := by
  rcases interpretPayload_cases 0x37#8 payload with ⟨hc, -⟩ | ⟨-, sig0, sig1, boot, m, rfl, hm, -⟩ | ⟨-, -, hi⟩
  · exact absurd rfl hc
  · rcases h with hlen | ⟨_, _, _, m', heq, hm'⟩
    · exact absurd rfl hlen
    · simp only [List.cons.injEq] at heq
      obtain ⟨-, -, -, rfl, -⟩ := heq
      omega
  · exact hi

theorem State.interpretFrame_of_none {s : State} (hf : s.frame = none) :
    s.interpretFrame = .next (s.raise (.usage .noValue)) := by
  simp [State.interpretFrame, hf]

section HeldFrame

variable {s : State} {f : FrameRegs} {payload : List Byte} (hf : s.frame = some f)
  (hread : f.pl.readFrom 0 f.len.toNat = some payload)

include hf hread

theorem State.interpretFrame_of_raw (hi : interpretPayload f.cmd payload = .ok (.raw payload)) :
    s.interpretFrame = .next { s with interp := .raw, result := .ok } := by
  simp [State.interpretFrame, hf, hread, hi, State.finish]

theorem State.interpretFrame_of_ident {r : IdentRegs} (hi : interpretPayload f.cmd payload = .ok (.ident r)) :
    s.interpretFrame = .next { s with interp := .ident r, result := .ok } := by
  simp [State.interpretFrame, hf, hread, hi, State.finish]

theorem State.interpretFrame_of_error {c : DecodingCause} (hi : interpretPayload f.cmd payload = .error c) :
    s.interpretFrame = .next (s.raise (.decoding c)) := by
  simp [State.interpretFrame, hf, hread, hi]

end HeldFrame

/-! ## Runs of the decoder's operations (R70, R73) -/

/-- Receiving reads and writes neither `result` nor `port`. -/
theorem State.receive_withOutcome (s : State) (b : Byte) (r : Result) (q : List Issue) :
    State.receive { s with result := r, port := q } b = { s.receive b with result := r, port := q } := by
  unfold State.receive
  split_ifs <;> rfl

theorem State.receives_withOutcome (s : State) (bytes : List Byte) (r : Result) (q : List Issue) :
    bytes.foldl State.receive { s with result := r, port := q } =
      { bytes.foldl State.receive s with result := r, port := q } := by
  induction bytes generalizing s with
  | nil => rfl
  | cons b bs ih => rw [List.foldl_cons, State.receive_withOutcome, ih, List.foldl_cons]

/-- The `RX.PUSH`es of a sequence receive it byte by byte (R72). -/
theorem run_rxPushes {s : State} {bytes : List Byte} {rest : List Issue} (hr : s.result = .ok)
    (hp : s.port = issues (bytes.map .rxPush) ++ rest) :
    Sys2Proof.core.run bytes.length s = .next { bytes.foldl State.receive s with result := .ok, port := rest } := by
  induction bytes generalizing s with
  | nil =>
    obtain rfl : s.port = rest := hp
    rw [← hr]
    rfl
  | cons b bs ih =>
    have hstep : step s = .next { s.receive b with result := .ok, port := issues (bs.map .rxPush) ++ rest } := by
      rw [step_of_issue (i := .rxPush b) hp rfl, exec_rxPush, State.receive_withOutcome]
      rfl
    rw [List.length_cons, run_succ hstep, ih rfl rfl, State.receives_withOutcome, List.foldl_cons]

/-- `RX.CLR`, the `RX.PUSH`es of a sequence and `RX.PARSE` are the pseudo-instruction `parse` (R49, R73). -/
theorem run_parse {s t : State} {bytes : List Byte} {rest : List Issue}
    (hp : s.port = issues (.rxClr :: bytes.map .rxPush ++ [.rxParse]) ++ rest)
    (h : State.parseSequence { s with result := .ok, port := rest } bytes = .next t) :
    Sys2Proof.core.run (bytes.length + 2) s = .next t := by
  have hclr : step s = .next { s.clearReceived with
      result := .ok, port := issues (bytes.map .rxPush) ++ ((encode .rxParse).issue :: rest) } :=
    step_of_issue (i := .rxClr) (by simpa using hp) rfl
  rw [show bytes.length + 2 = bytes.length + 1 + 1 from rfl, run_succ hclr, run_add (run_rxPushes rfl rfl) 1]
  refine (run_succ ?_ 0).trans (run_zero t)
  rw [step_of_issue (i := .rxParse) rfl rfl, State.receives_withOutcome]
  change State.parseReceived { bytes.foldl State.receive s.clearReceived with result := .ok, port := rest } = _
  rw [← State.receives_withOutcome]
  exact h

end Sys2Proof.Machine

namespace Sys2Proof.Proofs

open Sys2Proof.Machine Sys2Proof.Claims

/-! ## The statements -/

/-- Settles O22: bytes that pass the start and length tests are in the response layout of some fields, and on that layout
the remaining tests are those of the fields. -/
theorem parseAcceptsExactlyTheResponseFrames : Obligations.ParseAcceptsExactlyTheResponseFrames := by
  intro r p
  constructor
  · intro h
    obtain ⟨hlen, -, -, hstart, -, -⟩ := parseBytes_ok r p h
    obtain ⟨cmd, addr, payload, ack, crc, hpl, rfl⟩ := exists_response hstart hlen
    rw [parseBytes_response cmd addr ack crc hpl] at h
    split_ifs at h with hcmd hack hcrc
    obtain rfl := Except.ok.inj h
    exact ⟨by simpa using hcmd, by simpa using hack, hpl, rfl, by rw [not_not.1 hcrc]⟩
  · rintro ⟨hcmd, hack, hpl, hcrc, rfl⟩
    rw [parseBytes_response _ _ _ _ hpl]
    simp [hcmd, hack, ← hcrc]

/-- Settles O20, by the three cases of `RX.PUSH`. -/
theorem rxPushAppendsOrMarksOverflow : Obligations.RxPushAppendsOrMarksOverflow := by
  refine ⟨selects_rxPush, fun b s => ?_⟩
  rw [exec_rxPush]
  rcases s.receive_cases b with ⟨hlt, ht⟩ | ⟨heq, ht⟩ | ⟨hgt, ht⟩ <;> rw [ht]
  · exact ⟨fun _ => ⟨_, rfl, rfl, Memory.read_write_same .., fun i hi => Memory.read_write_ne _ _ _ _ hi⟩,
      fun h => absurd h (by omega), fun h => absurd h (by omega)⟩
  · exact ⟨fun h => absurd h (by omega), fun _ => rfl, fun h => absurd h (by omega)⟩
  · exact ⟨fun h => absurd h (by omega), fun h => absurd h (by omega), fun _ => rfl⟩

/-- Settles O21: the conditions of each verdict are those of `Judged`. -/
theorem parseReportsTheFirstFailingTest : Obligations.ParseReportsTheFirstFailingTest :=
  fun r => ⟨parseBytes_eq_iff r _, parseBytes_eq_iff r _, parseBytes_eq_iff r _, parseBytes_eq_iff r _,
    parseBytes_eq_iff r _, parseBytes_eq_iff r _, parseBytes_ne_payload r, fun p => parseBytes_eq_iff r (.ok p)⟩

/-- Settles O23, from the request layout. -/
theorem builtRequestSplitsBackAndIsNoResponse : Obligations.BuiltRequestSplitsBackAndIsNoResponse := by
  intro cmd addr payload f h
  obtain ⟨hlen, rfl⟩ := buildBytes_ok h
  have hpayload : ((requestFrame cmd addr payload).drop 5).take payload.length = payload := by
    simp [requestFrame, withCrc, requestBody]
  exact ⟨requestFrame_length cmd addr payload, rfl, rfl, be16_hi8_lo8 addr, byteAt_request_len cmd addr hlen, hpayload,
    crc16_requestFrame cmd addr payload, parseBytes_requestFrame cmd addr hlen⟩

/-- Settles O24: by linearity of the CRC one changed bit leaves a residue, so that the CRC test refuses what the tests
before it let pass. -/
theorem singleBitCorruptionIsRefused : Obligations.SingleBitCorruptionIsRefused :=
  fun _ addr _ _ hcmd hack hpl =>
    ⟨fun _ _ hj hk => parseBytes_flip hcmd hack hpl rfl hj hk,
      fun _ hb => parseBytes_wrong_start addr hcmd hack hpl _ hb⟩

/-- Settles O25: the bytes `RXBUF` holds are judged, and an overflowed buffer as bytes of a wrong count. -/
theorem rxParseFollowsItsRule : Obligations.RxParseFollowsItsRule := by
  intro s
  refine ⟨fun hcnt => ?overflow, fun r hcnt hlen hread => ?judged⟩
  case overflow => exact State.parseReceived_of_overflow (by rw [hcnt]; decide)
  case judged =>
    have hexec : exec .rxParse s = .next (s.judge (parseBytes r)) :=
      State.parseReceived_of_held hcnt (Memory.readFrom_of_holds hlen hread)
    rw [hexec]
    refine ⟨fun c hc => ?_, fun p hp => ⟨frameRegsOf p, frameRegsOf_shows hp, ?_⟩⟩
    · rw [hc, s.judge_error (ne_payload_of_parseBytes hc)]
    · rw [hp, s.judge_ok]

/-- Settles O26: the operations are those of the pseudo-instruction `parse`, which ends in the verdict on its bytes. -/
theorem receivedBytesAgreeWithParseBytes : Obligations.ReceivedBytesAgreeWithParseBytes := by
  intro s r rest hp
  obtain ⟨cnt, buf, hj⟩ := State.parseSequence_judges_bytes { s with result := .ok, port := rest } r
  cases hv : parseBytes r with
  | error c =>
    rw [hv, State.judge_error _ (ne_payload_of_parseBytes hv)] at hj
    exact ⟨_, run_parse hp hj, rfl, rfl, rfl, rfl, rfl, rfl, rfl⟩
  | ok p =>
    rw [hv, State.judge_ok] at hj
    exact ⟨_, run_parse hp hj, rfl, rfl, rfl, rfl, rfl, _, rfl, frameRegsOf_shows hv⟩

/-- Settles O27: with a frame held, each answer of `interpret_payload` on its payload is one clause. -/
theorem rxPayloadFollowsItsRule : Obligations.RxPayloadFollowsItsRule := by
  intro s
  refine ⟨State.interpretFrame_of_none, fun f p hf hlen hread => ?_⟩
  have hpl := Memory.readFrom_of_holds hlen hread
  refine ⟨fun hcmd => ?raw, fun sig0 sig1 boot m hcmd hp hm => ?ident, fun hcmd hbad => ?malformed⟩
  case raw => exact State.interpretFrame_of_raw hf hpl (interpretPayload_of_other hcmd p)
  case ident =>
    subst hp
    exact State.interpretFrame_of_ident hf hpl (hcmd ▸ interpretPayload_of_known sig0 sig1 boot hm)
  case malformed => exact State.interpretFrame_of_error hf hpl (hcmd ▸ interpretPayload_of_malformed hbad)

/-- Settles O19: an emptied store reads as holding nothing. -/
theorem rxClrEmptiesTheReceiveBuffer : Obligations.RxClrEmptiesTheReceiveBuffer :=
  ⟨selects_rxClr, fun _ => ⟨_, rfl, rfl, fun _ => rfl⟩⟩

end Sys2Proof.Proofs

/-! PROOFS of the family 43_access.md. First what `RD.PL` and `ERR.CLR` answer, clause by clause; then the
statements. -/

namespace Sys2Proof.Machine

/-! ## `RD.PL` and `ERR.CLR`, case by case (R80, R81) -/

theorem State.readPayloadByte_of_none {s : State} (hf : s.frame = none) (i : Byte) :
    s.readPayloadByte i = .next { s with result := .raised (.usage .noValue) } := by
  simp only [State.readPayloadByte, hf, State.raise_usage]

section HeldFrame

variable {s : State} {f : FrameRegs} {i : Byte} (hf : s.frame = some f)

include hf

theorem State.readPayloadByte_of_le (hi : f.len.toNat ≤ i.toNat) :
    s.readPayloadByte i = .next { s with result := .raised (.usage .badIndex) } := by
  simp only [State.readPayloadByte, hf, if_pos hi, State.raise_usage]

theorem State.readPayloadByte_of_lt {b : Byte} (hi : i.toNat < f.len.toNat) (hb : f.pl.read i.toNat = some b) :
    s.readPayloadByte i = .next { s with result := .value (b.setWidth 16) } := by
  simp only [State.readPayloadByte, hf, if_neg (Nat.not_le.2 hi), hb, State.finish]

end HeldFrame

theorem exec_rdPl (i : Byte) (s : State) : exec (.rdPl i) s = s.readPayloadByte i := rfl

theorem exec_errClr (s : State) : exec .errClr s = .next { s with err := 0x00#6, result := .ok } := rfl

end Sys2Proof.Machine

namespace Sys2Proof.Proofs

open Sys2Proof.Machine Sys2Proof.Claims

/-! ## The statements -/

/-- Settles O31: no frame, an index at or past its length, and an index below it are the three cases of R80. -/
theorem rdPlReadsThePayload : Obligations.RdPlReadsThePayload := by
  intro i s
  rw [exec_rdPl]
  exact ⟨fun hnone => State.readPayloadByte_of_none hnone i, fun _ hf =>
    ⟨State.readPayloadByte_of_le hf, fun _ => State.readPayloadByte_of_lt hf⟩⟩

/-- Settles O32. -/
theorem errClrClearsOnlyTheRecord : Obligations.ErrClrClearsOnlyTheRecord :=
  ⟨selects_errClr, exec_errClr⟩

end Sys2Proof.Proofs

/-! PROOFS of the family 44_commands.md. First what a whole row does in each of its cases: a request row through the
encoder, a response row through the decoder; then the statements. -/

namespace Sys2Proof.Machine

open Sys2Proof.Claims

/-! ## A request row: its frame, `hold Busy` or `E_OVERSIZE` (R48, R63) -/

/-- The opcodes of the request rows are the listed known ones (R40, R41). -/
theorem inCmdSet_of_requestRow {cmd : Byte} {i : Instr} {addr : Half} {payload : List Byte}
    (hrow : (cmd, i) ∈ requestRows addr payload) : inCmdSet cmd = true := by
  obtain ⟨-, hlisted, -⟩ := Proofs.knownCodesAreTheListedOnes
  exact (hlisted cmd).2 (List.mem_map_of_mem (f := Prod.fst) hrow)

/-- `build` of a known command within its length byte holds `Busy` while the queue holds bytes, its operands staged
(R48, R63). -/
theorem State.buildRequest_of_busy {s : State} (hq : s.txQ ≠ []) {cmd : Byte} (h : inCmdSet cmd = true) (addr : Half)
    {payload : List Byte} (hlen : payload.length ≤ 255) : s.buildRequest cmd addr payload =
      .next { s with
        txCmd := cmd, txAddr := addr, txCnt := BitVec.ofNat 9 payload.length, txBuf := Memory.writeFrom [] 0 payload
        result := .held .busy } := by
  have hcnt : (BitVec.ofNat 9 payload.length).toNat ≤ 255 := by
    rw [BitVec.toNat_ofNat]; omega
  rw [s.buildRequest_eq cmd addr payload hlen]
  exact State.buildFrame_of_busy h hcnt hq

/-! ## A response row: its bytes received and judged (R49, R70) -/

/-- The opcodes of the response rows are the listed known ones (R40, R41). -/
theorem inCmdSet_of_responseRow {cmd : Byte} {i : Instr} {addr : Half} {payload : List Byte} {ack : Byte} {crc : Half}
    (hrow : (cmd, i) ∈ responseRows addr payload ack crc) : inCmdSet cmd = true := by
  obtain ⟨-, hlisted, -⟩ := Proofs.knownCodesAreTheListedOnes
  exact (hlisted cmd).2 (List.mem_map_of_mem (f := Prod.fst) hrow)

/-- The model's layout is the one written out from R37. -/
theorem responseFrame_eq_closed (cmd : Byte) (addr : Half) (payload : List Byte) (ack : Byte) (crc : Half) :
    responseFrame cmd addr payload ack crc = closed (responseBytes cmd addr payload ack) crc := rfl

section ResponseRow

variable {cmd : Byte} {i : Instr} {addr : Half} {payload : List Byte} {ack : Byte} {crc : Half}
  (hrow : (cmd, i) ∈ responseRows addr payload ack crc) (hlen : payload.length ≤ 255)

include hrow hlen

/-- A response row within its length byte fits into `RXBUF`, so that the verdict is on all of its bytes (R5, R72). -/
theorem exec_responseRow_judges (s : State) :
    exec i s = .next (State.judge
      { s with
        rxCnt := BitVec.ofNat 9 (8 + payload.length)
        rxBuf := Memory.writeFrom [] 0 (closed (responseBytes cmd addr payload ack) crc) }
      (parseBytes (closed (responseBytes cmd addr payload ack) crc))) := by
  have hcount := response_length cmd addr payload ack crc
  rw [exec_responseRow hrow, responseFrame_eq_closed, s.parseSequence_eq _ (by omega), hcount]

/-- A refused response row holds no frame; its bytes stay in `RXBUF` (R73, R106). -/
theorem exec_responseRow_of_refused (s : State) {c : DecodingCause}
    (hc : parseBytes (closed (responseBytes cmd addr payload ack) crc) = .error c) :
    ∃ t, exec i s = .next t ∧ t.rxBuf.holds (closed (responseBytes cmd addr payload ack) crc) ∧
      t = { s with
        rxCnt := BitVec.ofNat 9 (8 + payload.length), rxBuf := t.rxBuf
        frame := none, interp := .none, err := errOfDecoding c, result := .raised (.decoding c) } := by
  have hexec := exec_responseRow_judges hrow hlen s
  rw [hc, State.judge_error _ (ne_payload_of_parseBytes hc)] at hexec
  exact ⟨_, hexec, Memory.read_ofBytes _, rfl⟩

theorem parseBytes_responseRow_of_unknown_ack (hack : inAckSet ack = false) :
    parseBytes (closed (responseBytes cmd addr payload ack) crc) = .error .ack := by
  rw [parseBytes_response cmd addr ack crc hlen]
  simp [inCmdSet_of_responseRow hrow, hack]

theorem parseBytes_responseRow_of_wrong_crc (hack : inAckSet ack = true)
    (hcrc : crc ≠ crc16 (responseBytes cmd addr payload ack)) :
    parseBytes (closed (responseBytes cmd addr payload ack) crc) = .error .crc := by
  rw [parseBytes_response cmd addr ack crc hlen]
  simp [inCmdSet_of_responseRow hrow, hack, hcrc.symm]

theorem parseBytes_responseRow_of_right_crc (hack : inAckSet ack = true)
    (hcrc : crc = crc16 (responseBytes cmd addr payload ack)) :
    parseBytes (closed (responseBytes cmd addr payload ack) crc) = .ok ⟨cmd, addr, payload, ack, crc⟩ := by
  rw [parseBytes_response cmd addr ack crc hlen]
  simp [inCmdSet_of_responseRow hrow, hack, ← hcrc]

end ResponseRow

end Sys2Proof.Machine

namespace Sys2Proof.Proofs

open Sys2Proof.Machine Sys2Proof.Claims

/-! ## The statements -/

/-- Settles O17: a row runs `build` with its own opcode, and what `build` loads is what the row encodes to. -/
theorem requestRowsPutTheirFrameInTheQueue : Obligations.RequestRowsPutTheirFrameInTheQueue := by
  rintro addr payload s hlen hq ⟨cmd, i⟩ hrow
  obtain ⟨-, hencode, -⟩ := requestInstr_of_mem hrow
  have hexec := (exec_requestRow hrow s).trans
    (State.buildRequest_of_fits hq (inCmdSet_of_requestRow hrow) addr hlen)
  exact ⟨_, hexec, rfl, Memory.read_ofBytes payload, hencode⟩

/-- Settles O18: with a known opcode, `build` ends in the size test or, on a queue in use, in the hold. -/
theorem requestRowsHoldOrRefuseOversize : Obligations.RequestRowsHoldOrRefuseOversize := by
  rintro addr payload s ⟨cmd, i⟩ hrow
  have hcmd := inCmdSet_of_requestRow hrow
  refine ⟨fun hlen hq => ?busy, fun hlen => ?oversize⟩
  case busy =>
    exact ⟨_, (exec_requestRow hrow s).trans (State.buildRequest_of_busy hq hcmd addr hlen),
      Memory.read_ofBytes payload, rfl⟩
  case oversize =>
    exact ⟨_, (exec_requestRow hrow s).trans (s.buildRequest_of_oversize hcmd addr hlen),
      Memory.read_ofBytes (payload.take 255), rfl⟩

/-- Settles O28: the verdict on the row's bytes is its own fields, which the frame registers then show. -/
theorem responseRowsAreDecoded : Obligations.ResponseRowsAreDecoded := by
  rintro addr payload ack crc s hlen hack ⟨cmd, i⟩ hrow hcrc
  have hverdict := parseBytes_responseRow_of_right_crc hrow hlen hack hcrc
  have hexec := exec_responseRow_judges hrow hlen s
  rw [hverdict, State.judge_ok] at hexec
  exact ⟨_, _, hexec, rfl, Memory.read_ofBytes _, frameRegsOf_shows hverdict⟩

/-- Settles O29: the opcode passes, so that the ack and then the CRC are the first tests that can fail. -/
theorem responseRowsAreRefusedByAckOrCrc : Obligations.ResponseRowsAreRefusedByAckOrCrc := by
  rintro addr payload ack crc s hlen ⟨cmd, i⟩ hrow
  exact ⟨fun hack => exec_responseRow_of_refused hrow hlen s (parseBytes_responseRow_of_unknown_ack hrow hlen hack),
    fun hack hcrc =>
      exec_responseRow_of_refused hrow hlen s (parseBytes_responseRow_of_wrong_crc hrow hlen hack hcrc)⟩

end Sys2Proof.Proofs

/-! PROOFS of the family 60_exceptions.md. First which operation words can end without effect, and what each then
leaves; then the statement. -/

namespace Sys2Proof.Machine

/-! ## The outcomes without effect (R104, R106, R107) -/

/-- A UsageFault or a hold. -/
def Result.isNoEffect : Result → Bool
  | .raised (.usage _) => true
  | .held _ => true
  | _ => false

theorem Result.isNoEffect_iff (r : Result) :
    r.isNoEffect = true ↔ (∃ c, r = .raised (.usage c)) ∨ ∃ h, r = .held h := by
  cases r with
  | raised e => cases e <;> simp [Result.isNoEffect]
  | _ => simp [Result.isNoEffect]

/-- A judgement ends in acceptance or in a DecodingError (R73). -/
theorem State.judge_isNoEffect (s : State) (v : Except DecodingCause ParsedFrame) :
    (s.judge v).result.isNoEffect = false := by
  rcases s.judge_cases v with ⟨c, -, hj⟩ | ⟨p, -, hj⟩ <;> rw [hj]
  · rw [State.raise_result]
    rfl
  · rfl

/-- `TX.BUILD` ends without effect in `hold Busy` only: its errors are EncodingErrors (R63). -/
theorem State.buildFrame_of_noEffect {s t : State} (h : s.buildFrame = .next t) (hr : t.result.isNoEffect = true) :
    t = { s with result := t.result } := by
  rcases s.buildFrame_next t h with ⟨-, rfl⟩ | ⟨-, -, rfl⟩ | ⟨-, -, -, rfl⟩ | ⟨-, -, -, payload, -, rfl⟩
  · exact absurd hr Bool.false_ne_true
  · exact absurd hr Bool.false_ne_true
  · rfl
  · exact absurd hr Bool.false_ne_true

/-- `LINE.TAKE` ends without effect in `hold Empty` only (R65). -/
theorem State.takeByte_of_noEffect {s : State} (hr : s.takeByte.result.isNoEffect = true) :
    s.takeByte = { s with result := s.takeByte.result } := by
  rcases s.takeByte_cases with ⟨-, ht⟩ | ⟨b, rest, -, ht⟩ <;> rw [ht] at hr ⊢
  · rfl
  · exact absurd hr Bool.false_ne_true

/-- `RX.PAYLOAD` ends without effect in `U_NO_VALUE` only: a malformed payload is a DecodingError (R75). -/
theorem State.interpretFrame_of_noEffect {s t : State} (h : s.interpretFrame = .next t)
    (hr : t.result.isNoEffect = true) : t = { s with result := t.result } := by
  rcases s.interpretFrame_next t h with
    ⟨-, rfl⟩ | ⟨f, payload, -, -, ⟨c, -, rfl⟩ | ⟨r, -, rfl⟩ | ⟨p, -, rfl⟩⟩
  · rfl
  · rw [State.raise_result] at hr
    exact absurd hr Bool.false_ne_true
  · exact absurd hr Bool.false_ne_true
  · exact absurd hr Bool.false_ne_true

/-- `TX.BUILD`, `LINE.TAKE` and `RX.PAYLOAD` change state only with another outcome, `RD` and `RD.PL` with none; the
other eight words never end in a UsageFault or a hold (R106, R107). -/
theorem exec_of_noEffect {i : Instr} {s t : State} (hword : i.framePayload = none) (h : exec i s = .next t)
    (hr : t.result.isNoEffect = true) : t = { s with result := t.result } := by
  cases i using Instr.rowCases with
  | crcInit | crcByte | txNew | txPush | rxClr | rxPush | errClr => cases h; exact absurd hr Bool.false_ne_true
  | txBuild => exact State.buildFrame_of_noEffect h hr
  | lineTake => cases h; exact State.takeByte_of_noEffect hr
  | rxParse =>
    obtain ⟨r, rfl⟩ := State.parseReceived_judges h
    rw [State.judge_isNoEffect] at hr
    exact absurd hr Bool.false_ne_true
  | rxPayload => exact State.interpretFrame_of_noEffect h hr
  | rd reg => cases h; exact s.readRegister_frame reg
  | rdPl k => exact State.readPayloadByte_frame h
  | request i addr payload hrow =>
    obtain ⟨cmd, hrow⟩ := hrow
    obtain ⟨-, -, hpayload⟩ := requestInstr_of_mem hrow
    exact absurd (hword.symm.trans hpayload) nofun
  | response i addr payload ack crc hrow =>
    obtain ⟨cmd, hrow⟩ := hrow
    obtain ⟨-, -, hpayload⟩ := responseInstr_of_mem hrow
    exact absurd (hword.symm.trans hpayload) nofun

end Sys2Proof.Machine

namespace Sys2Proof.Proofs

open Sys2Proof.Machine

/-! ## The statement -/

/-- Settles O48: a UsageFault and a hold are the outcomes without effect, and an operation word that ends in one
leaves the state as it was. -/
theorem usageFaultsAndHoldsChangeNothing : Obligations.UsageFaultsAndHoldsChangeNothing :=
  fun _ _ t hword h hr => exec_of_noEffect hword h (t.result.isNoEffect_iff.2 hr)

end Sys2Proof.Proofs

/-! PROOFS of the family 70_reset_and_hazards.md. First the rules the proof cites: the step of the reset input, and that
the table of R23 does not ask what is issued next; then the statement. -/

namespace Sys2Proof.Machine

open Sys2Proof.Claims

/-! ## The reset input (R113) -/

/-- The reset input spells no row of the table and runs as a step of its own: the block is as `State.reset` has it, and
only the remaining issues stay. -/
theorem step_of_rst {s : State} {rest : List Issue} (hp : s.port = .rst :: rest) :
    step s = .next { State.reset with port := rest } :=
  step_of_undecoded (e := .resetInput) hp rfl

/-- The table of R23 is about the block, not about what the agents issue next. -/
theorem atReset_withPort {s : State} (q : List Issue) : AtReset { s with port := q } ↔ AtReset s :=
  Iff.rfl

end Sys2Proof.Machine

namespace Sys2Proof.Proofs

open Sys2Proof.Machine

/-! ## The statement -/

/-- Settles O40: the step of the reset input answers the reset state with the remaining issues, and the reset state is
the table of R23 (O39). -/
theorem resetInputResetsEverything : Obligations.ResetInputResetsEverything :=
  fun _ rest hp => ⟨_, step_of_rst hp, (atReset_withPort rest).2 resetStateIsTheSpecs⟩

end Sys2Proof.Proofs
